-- ==== Sys2Proof/Word.lean ====
section
/-! DEFINITION. The word types of the block (00_scope.md R10, R11): every unit on the bus is one byte, a command word
has 16 bits, a bus device address and a DDRAM address have 7. -/

namespace Sys2Proof

/-- One byte on the bus, an opcode, a selector or a data value (`OPCODE_WIDTH` = 8, R10). -/
abbrev Byte := BitVec 8

/-- The host command word and `cmd_len`, 16 bits each (30_encoding.md R85, R86). -/
abbrev Word := BitVec 16

/-- A 7-bit address: the bus device address (20_memory.md R41) or a DDRAM address (R43). -/
abbrev Addr7 := BitVec 7

end Sys2Proof
end

