-- ==== Sys2Proof/Config.lean ====
section
/-! DEFINITION. What an implementation and the surroundings of the block fix: the parameters of 00_scope.md R10, the
form of the transport's answers (R13) and the free values of the model. -/

namespace Sys2Proof

/-- `P_INIT_GROUPING` (00_scope.md R10, 92_eei_decisions.md D12): how `INIT` groups its bytes into transactions. -/
inductive InitGrouping where
  | perInstruction
  | batched
  deriving DecidableEq, Repr

/-- The three minimum waits of 00_scope.md R10. -/
inductive WaitKind where
  | settle
  | fsGap
  | initTail
  deriving DecidableEq, Repr

/-- The lower bound of a wait in milliseconds (00_scope.md R10, 70_reset_and_hazards.md R242): `T_SETTLE` 1,
`T_FS_GAP` 10, `T_INIT_TAIL` 1. Any longer wait conforms (R14). -/
def WaitKind.minMs : WaitKind → Nat
  | .settle => 1
  | .fsGap => 10
  | .initTail => 1

/-- What `BusEnd` returns (00_scope.md R13, 45_transmit_primitives.md R176). -/
inductive BusStatus where
  | ok
  | busError
  deriving DecidableEq, Repr

/-- What `BusRequest` returns (00_scope.md R13, 45_transmit_primitives.md R176). -/
inductive ReadAnswer where
  | byte (b : Byte)
  | failure
  deriving DecidableEq, Repr

/-- The transport's draw for one transport event (00_scope.md R13; 93_implementation_defined.md U10, U13): the event
never completes, or it completes, with a status that only `BusEnd` reads and an answer that only `BusRequest` reads. -/
inductive Draw where
  | never
  | answer (status : BusStatus) (read : ReadAnswer)
  deriving DecidableEq, Repr, Inhabited

/-- The status a completed `BusEnd` returns under this draw. -/
def Draw.status : Draw → BusStatus
  | .never => .busError
  | .answer status _ => status

/-- The answer a completed `BusRequest` returns under this draw. -/
def Draw.read : Draw → ReadAnswer
  | .never => .failure
  | .answer _ read => read

/-- FREE VALUE (DESIGN CHOICE, log entry 2): the transport's draw for its n-th event, where State lists none. -/
opaque Config.draw : Nat → Draw

/-- FREE VALUE (DESIGN CHOICE, log entry 4): how many transport events a `PRINT_SEQ` whose payload stops short has
emitted when it stalls (30_encoding.md R89 does not say). -/
opaque Config.stallEvents : Nat → Nat

/-- FREE VALUE (DESIGN CHOICE, log entry 5): how many payload bytes a `PRINT_SEQ` has taken when the transport stops
answering in its transaction (30_encoding.md R89 does not say). -/
opaque Config.payloadTaken : Nat → Nat

end Sys2Proof
end

