-- ==== Sys2Proof/Syntax.lean ====
section
/-! DEFINITION. The instructions: one constructor of `Instr` for each row of spec/opcode_table.json, and the words they
are read from (30_encoding.md R81). -/

namespace Sys2Proof

/-- The formats of 30_encoding.md R81 whose words are one byte. The sixth format, `cmd16`, is `CodeWord.command`. -/
inductive ByteFormat where
  /-- an instruction byte read with the normal table, R60 -/
  | lcdIr8
  /-- one of the four fixed extended-table bytes, R70 -/
  | lcdIr8Ext
  /-- a selector byte, R72 -/
  | controlByte
  /-- a data byte after a data selector, R75 -/
  | lcdDr8
  /-- a status byte read from the chip, R78 -/
  | status8
  deriving DecidableEq, Repr

/-- What an instruction is decoded from: a command word with the `cmd_len` offered beside it (30_encoding.md R85), or a
byte together with the format that tells which table reads it (R71, R81). -/
inductive CodeWord where
  | command (word len : Word)
  | byteWord (format : ByteFormat) (byte : Byte)
  deriving DecidableEq, Repr

/-- The rows of spec/opcode_table.json. The first fifteen are the host commands (30_encoding.md R87); the others are
the bytes the block puts on the bus or reads from it. -/
inductive Instr where
  /-- `INIT lineCount` (40_init_sequencer.md R100) -/
  | init (lineCount : Nat)
  /-- `IS_AVAILABLE` (41_availability.md R120) -/
  | isAvailable
  /-- `PRINT_BYTE b` (42_data_write.md R130) -/
  | printByte (b : Byte)
  /-- `PRINT_SEQ`, `n = cmd_len` bytes of the payload stream (42_data_write.md R131) -/
  | printSeq (n : Nat)
  /-- `CLEAR` (43_instruction_commands.md R141) -/
  | clear
  /-- `HOME` (R142) -/
  | home
  /-- `SET_ENTRY_MODE inc, shift` (R143) -/
  | setEntryMode (inc shift : Bool)
  /-- `SET_ON_OFF on, cursor, blink` (R144) -/
  | setOnOff (on cursor blink : Bool)
  /-- `SET_SCREEN_SHIFT right` (R145) -/
  | setScreenShift (right : Bool)
  /-- `SET_CURSOR_SHIFT right` (R146) -/
  | setCursorShift (right : Bool)
  /-- `SET_DATA_ADDRESS addr` (R147) -/
  | setDataAddress (addr : Addr7)
  /-- `SET_DATA_ADDRESS_CR col, row` (R148) -/
  | setDataAddressCr (col : Byte) (row : Nat)
  /-- `GET_STATUS` (44_status_read.md R160) -/
  | getStatus
  /-- `GET_IS_BUSY` (R162) -/
  | getIsBusy
  /-- `GET_ADDRESS` (R163) -/
  | getAddress
  /-- clear, normal table (30_encoding.md R61) -/
  | lcdClear
  /-- return-home (R62) -/
  | lcdReturnHome
  /-- entry-mode (R63) -/
  | lcdEntryModeSet (inc shift : Bool)
  /-- display-ctrl (R64) -/
  | lcdDisplayControl (on cursor blink : Bool)
  /-- shift: `screen` is the "screen/cursor" bit (R65) -/
  | lcdCursorDisplayShift (screen right : Bool)
  /-- function-set (R66) -/
  | lcdFunctionSet (eightBit twoLine fontHeight extended : Bool)
  /-- set-CGRAM-addr (R67) -/
  | lcdSetCgramAddress (addr : BitVec 6)
  /-- set-DDRAM-addr (R68) -/
  | lcdSetDdramAddress (addr : Addr7)
  /-- `0x14`, extended table (R70) -/
  | extOscFrequency
  /-- `0x79`, extended table (R70) -/
  | extContrastLow
  /-- `0x50`, extended table (R70) -/
  | extPowerIconContrastHigh
  /-- `0x6C`, extended table (R70) -/
  | extFollowerControl
  /-- `0x00`, instruction register selector (R72) -/
  | selectorInstruction
  /-- `0x40`, data register selector (R72) -/
  | selectorData
  /-- a data byte (R75) -/
  | dataByte (d : Byte)
  /-- a status byte split into busy flag and address (R78) -/
  | statusByte (busy : Bool) (addr : Addr7)
  deriving DecidableEq, Repr

/-- The rows of format `cmd16`: what a host can ask of the block (30_encoding.md R87). -/
def Instr.isCommand : Instr → Bool
  | .init _ | .isAvailable | .printByte _ | .printSeq _ | .clear | .home | .setEntryMode _ _ | .setOnOff _ _ _
  | .setScreenShift _ | .setCursorShift _ | .setDataAddress _ | .setDataAddressCr _ _ | .getStatus | .getIsBusy
  | .getAddress => true
  | .lcdClear | .lcdReturnHome | .lcdEntryModeSet _ _ | .lcdDisplayControl _ _ _ | .lcdCursorDisplayShift _ _
  | .lcdFunctionSet _ _ _ _ | .lcdSetCgramAddress _ | .lcdSetDdramAddress _ | .extOscFrequency | .extContrastLow
  | .extPowerIconContrastHigh | .extFollowerControl | .selectorInstruction | .selectorData | .dataByte _
  | .statusByte _ _ => false

end Sys2Proof
end

