-- ==== Sys2Proof/WellFormed.lean ====
section
/-! DEFINITION. The operand ranges the spec gives that the operand types of `Instr` do not already carry. -/

namespace Sys2Proof

/-- The checks: `lineCount` is 1 or 2 (40_init_sequencer.md R100), `n` fits the 16-bit `cmd_len` (42_data_write.md
R131), `row` is 0 or 1 (43_instruction_commands.md R148). Every other operand has a type that holds its range. -/
def Instr.wellFormed : Instr → Bool
  | .init lineCount => lineCount == 1 || lineCount == 2
  | .printSeq n => n < 65536
  | .setDataAddressCr _ row => row == 0 || row == 1
  | .isAvailable | .printByte _ | .clear | .home | .setEntryMode _ _ | .setOnOff _ _ _ | .setScreenShift _
  | .setCursorShift _ | .setDataAddress _ | .getStatus | .getIsBusy | .getAddress => true
  | .lcdClear | .lcdReturnHome | .lcdEntryModeSet _ _ | .lcdDisplayControl _ _ _ | .lcdCursorDisplayShift _ _
  | .lcdFunctionSet _ _ _ _ | .lcdSetCgramAddress _ | .lcdSetDdramAddress _ | .extOscFrequency | .extContrastLow
  | .extPowerIconContrastHigh | .extFollowerControl | .selectorInstruction | .selectorData | .dataByte _
  | .statusByte _ _ => true

end Sys2Proof
end

