-- ==== Sys2Proof/Decode.lean ====
section
/-! DEFINITION. The decoder of 30_encoding.md, total on every command word and on every byte of every format, rejecting
by name, and after it the encoder, written from the same tables. -/

namespace Sys2Proof

/-- Why a code word is no instruction. -/
inductive Reject where
  /-- `OP = 0xF` (30_encoding.md R87, R88) -/
  | reservedCommandCode
  /-- `cmd_word[11] = 1` (R86, R88) -/
  | reservedBit
  /-- a bit of `F` or `A` that the command does not use is 1 (R88) -/
  | unusedOperandBit
  /-- an `lcd_ir8` byte with no base code: `0x00` (R60) -/
  | noBaseCode
  /-- an `lcd_ir8` byte with an unnamed bit set (R69) -/
  | unnamedBit
  /-- an `lcd_ir8_ext` byte other than the four literals (R70) -/
  | notExtendedLiteral
  /-- a `control_byte` other than the two selectors (R72) -/
  | notSelector
  deriving DecidableEq, Repr

/-- What the decoder answers. -/
inductive Decoded where
  | instr (i : Instr)
  | rejected (r : Reject)
  deriving DecidableEq, Repr

def Decoded.toOption : Decoded → Option Instr
  | .instr i => some i
  | .rejected _ => none

/-! ## Command words -/

/-- `OP = cmd_word[15:12]` (30_encoding.md R86). -/
def opField (w : Word) : BitVec 4 := w.extractLsb' 12 4

/-- `F[k]`, bit `8 + k` of the command word (R86). -/
def fBit (w : Word) (k : Nat) : Bool := w.getLsbD (8 + k)

/-- `A = cmd_word[7:0]` (R86). -/
def aField (w : Word) : Byte := w.extractLsb' 0 8

/-- The bits of `F` and `A` that the command code uses, column "fields used" of 30_encoding.md R87. -/
def usedBits (op : Nat) : Word :=
  match op with
  | 0x0 => 0x0100
  | 0x2 => 0x00FF
  | 0x6 => 0x0300
  | 0x7 => 0x0700
  | 0x8 => 0x0100
  | 0x9 => 0x0100
  | 0xA => 0x007F
  | 0xB => 0x01FF
  | _ => 0x0000

/-- The instruction of a valid command word (45_transmit_primitives.md R177). `len` is `cmd_len`, read only for
`PRINT_SEQ` (30_encoding.md R85). -/
def commandOf (w len : Word) : Decoded :=
  match (opField w).toNat with
  | 0x0 => .instr (.init (1 + (fBit w 0).toNat))
  | 0x1 => .instr .isAvailable
  | 0x2 => .instr (.printByte (aField w))
  | 0x3 => .instr (.printSeq len.toNat)
  | 0x4 => .instr .clear
  | 0x5 => .instr .home
  | 0x6 => .instr (.setEntryMode (fBit w 1) (fBit w 0))
  | 0x7 => .instr (.setOnOff (fBit w 2) (fBit w 1) (fBit w 0))
  | 0x8 => .instr (.setScreenShift (fBit w 0))
  | 0x9 => .instr (.setCursorShift (fBit w 0))
  | 0xA => .instr (.setDataAddress (w.extractLsb' 0 7))
  | 0xB => .instr (.setDataAddressCr (aField w) (fBit w 0).toNat)
  | 0xC => .instr .getStatus
  | 0xD => .instr .getIsBusy
  | 0xE => .instr .getAddress
  | _ => .rejected .reservedCommandCode

/-- `Dispatch`'s reading of a command word (30_encoding.md R86 to R88): the three ways a word is invalid, then the
instruction. -/
def decodeCommand (w len : Word) : Decoded :=
  if w.getLsbD 11 then .rejected .reservedBit
  else if w &&& 0x07FF &&& ~~~(usedBits (opField w).toNat) ≠ 0 then .rejected .unusedOperandBit
  else commandOf w len

/-! ## Bytes -/

/-- An instruction byte under the normal table: its family is its highest set bit (30_encoding.md R60); the unnamed
bits of a family must be 0 (R69). -/
def decodeIr8 (b : Byte) : Decoded :=
  if b.getLsbD 7 then .instr (.lcdSetDdramAddress (b.extractLsb' 0 7))
  else if b.getLsbD 6 then .instr (.lcdSetCgramAddress (b.extractLsb' 0 6))
  else if b.getLsbD 5 then
    if b.getLsbD 1 then .rejected .unnamedBit
    else .instr (.lcdFunctionSet (b.getLsbD 4) (b.getLsbD 3) (b.getLsbD 2) (b.getLsbD 0))
  else if b.getLsbD 4 then
    if b.getLsbD 1 || b.getLsbD 0 then .rejected .unnamedBit
    else .instr (.lcdCursorDisplayShift (b.getLsbD 3) (b.getLsbD 2))
  else if b.getLsbD 3 then .instr (.lcdDisplayControl (b.getLsbD 2) (b.getLsbD 1) (b.getLsbD 0))
  else if b.getLsbD 2 then .instr (.lcdEntryModeSet (b.getLsbD 1) (b.getLsbD 0))
  else if b.getLsbD 1 then
    if b.getLsbD 0 then .rejected .unnamedBit else .instr .lcdReturnHome
  else if b.getLsbD 0 then .instr .lcdClear
  else .rejected .noBaseCode

/-- A byte under the extended table: one of the four fixed literals (30_encoding.md R70). -/
def decodeIr8Ext (b : Byte) : Decoded :=
  if b = 0x14 then .instr .extOscFrequency
  else if b = 0x79 then .instr .extContrastLow
  else if b = 0x50 then .instr .extPowerIconContrastHigh
  else if b = 0x6C then .instr .extFollowerControl
  else .rejected .notExtendedLiteral

/-- A selector byte (30_encoding.md R72). -/
def decodeSelector (b : Byte) : Decoded :=
  if b = 0x00 then .instr .selectorInstruction
  else if b = 0x40 then .instr .selectorData
  else .rejected .notSelector

/-- A byte under its format (30_encoding.md R81). Every data byte and every status byte is legal (R75, R78). -/
def decodeByte (f : ByteFormat) (b : Byte) : Decoded :=
  match f with
  | .lcdIr8 => decodeIr8 b
  | .lcdIr8Ext => decodeIr8Ext b
  | .controlByte => decodeSelector b
  | .lcdDr8 => .instr (.dataByte b)
  | .status8 => .instr (.statusByte (b.getLsbD 7) (b.extractLsb' 0 7))

/-- The decoder. -/
def decode : CodeWord → Decoded
  | .command word len => decodeCommand word len
  | .byteWord format byte => decodeByte format byte

/-! ## Words of the opcode table -/

/-- The format a byte of the table is read with when nothing but its bits is given: the rows that fix every bit first,
then the normal table, then a data byte (DESIGN CHOICE, log entry 9: by R71 the bits alone do not tell). -/
def tableFormat (b : Byte) : ByteFormat :=
  if b = 0x14 ∨ b = 0x79 ∨ b = 0x50 ∨ b = 0x6C then .lcdIr8Ext
  else if b = 0x00 ∨ b = 0x40 then .controlByte
  else if (decodeIr8 b).toOption.isSome then .lcdIr8
  else .lcdDr8

/-- The code word of a word of the opcode table: up to 8 bits a byte, else a command word in bits 15..0 with `cmd_len`
in bits 31..16 (log entry 9). -/
def tableCodeWord (nbits w : Nat) : CodeWord :=
  if nbits ≤ 8 then .byteWord (tableFormat (BitVec.ofNat 8 w)) (BitVec.ofNat 8 w)
  else .command (BitVec.ofNat 16 w) (BitVec.ofNat 16 (w / 65536))

/-- The instruction the decoder reads from a word of the opcode table. -/
def decodeTableWord (nbits w : Nat) : Option Instr :=
  (decode (tableCodeWord nbits w)).toOption

/-! ## The encoder -/

/-- `OP`, the reserved bit, `F[2:0]` and `A[7:0]` in their places (30_encoding.md R86). -/
def commandWord (op : BitVec 4) (f2 f1 f0 : Bool) (a : Byte) : Word :=
  op ++ 0#1 ++ BitVec.ofBool f2 ++ BitVec.ofBool f1 ++ BitVec.ofBool f0 ++ a

/-- The code word of an instruction (30_encoding.md R87 and the rows R61 to R78). `cmd_len` is 0 for every command that
does not read it. -/
def encode : Instr → CodeWord
  | .init lineCount => .command (commandWord 0x0 false false (lineCount == 2) 0) 0
  | .isAvailable => .command (commandWord 0x1 false false false 0) 0
  | .printByte b => .command (commandWord 0x2 false false false b) 0
  | .printSeq n => .command (commandWord 0x3 false false false 0) (BitVec.ofNat 16 n)
  | .clear => .command (commandWord 0x4 false false false 0) 0
  | .home => .command (commandWord 0x5 false false false 0) 0
  | .setEntryMode inc shift => .command (commandWord 0x6 false inc shift 0) 0
  | .setOnOff on cursor blink => .command (commandWord 0x7 on cursor blink 0) 0
  | .setScreenShift right => .command (commandWord 0x8 false false right 0) 0
  | .setCursorShift right => .command (commandWord 0x9 false false right 0) 0
  | .setDataAddress addr => .command (commandWord 0xA false false false (0#1 ++ addr)) 0
  | .setDataAddressCr col row => .command (commandWord 0xB false false (row == 1) col) 0
  | .getStatus => .command (commandWord 0xC false false false 0) 0
  | .getIsBusy => .command (commandWord 0xD false false false 0) 0
  | .getAddress => .command (commandWord 0xE false false false 0) 0
  | .lcdClear => .byteWord .lcdIr8 0b00000001
  | .lcdReturnHome => .byteWord .lcdIr8 0b00000010
  | .lcdEntryModeSet inc shift => .byteWord .lcdIr8 (0b000001#6 ++ BitVec.ofBool inc ++ BitVec.ofBool shift)
  | .lcdDisplayControl on cursor blink =>
      .byteWord .lcdIr8 (0b00001#5 ++ BitVec.ofBool on ++ BitVec.ofBool cursor ++ BitVec.ofBool blink)
  | .lcdCursorDisplayShift screen right =>
      .byteWord .lcdIr8 (0b0001#4 ++ BitVec.ofBool screen ++ BitVec.ofBool right ++ 0b00#2)
  | .lcdFunctionSet eightBit twoLine fontHeight extended =>
      .byteWord .lcdIr8 (0b001#3 ++ BitVec.ofBool eightBit ++ BitVec.ofBool twoLine ++ BitVec.ofBool fontHeight
        ++ 0b0#1 ++ BitVec.ofBool extended)
  | .lcdSetCgramAddress addr => .byteWord .lcdIr8 (0b01#2 ++ addr)
  | .lcdSetDdramAddress addr => .byteWord .lcdIr8 (0b1#1 ++ addr)
  | .extOscFrequency => .byteWord .lcdIr8Ext 0x14
  | .extContrastLow => .byteWord .lcdIr8Ext 0x79
  | .extPowerIconContrastHigh => .byteWord .lcdIr8Ext 0x50
  | .extFollowerControl => .byteWord .lcdIr8Ext 0x6C
  | .selectorInstruction => .byteWord .controlByte 0x00
  | .selectorData => .byteWord .controlByte 0x40
  | .dataByte d => .byteWord .lcdDr8 d
  | .statusByte busy addr => .byteWord .status8 (BitVec.ofBool busy ++ addr)

end Sys2Proof
end

