-- ==== Sys2Proof/Machine/State.lean ====
section
/-! DEFINITION. The machine's state as plain data: the eight fields of 10_state.md R22, then the model's own fields
(the parameter, the inputs from host and transport, the record of what was emitted). -/

namespace Sys2Proof.Machine

/-- `st.fsm` (10_state.md R22): the three states; the code 3 is never held. -/
inductive Fsm where
  | uninit
  | initializing
  | ready
  deriving DecidableEq, Repr

/-- The result codes a command can end with (30_encoding.md R90). -/
inductive Result where
  | ok
  | ignored
  | notReady
  | busError
  | readFailure
  | invalidCommand
  deriving DecidableEq, Repr

/-- One entry of the trace: a transport event with what it returned, or a wait (00_scope.md R13, R14). `none` in
`busEnd` or `busRequest` is an event that was emitted and never completed (70_reset_and_hazards.md R242). -/
inductive Event where
  | busConfigure
  | busBegin (addr : Addr7)
  | busWrite (b : Byte)
  | busEnd (status : Option BusStatus)
  | busRequest (addr : Addr7) (answer : Option ReadAnswer)
  | wait (w : WaitKind)
  deriving DecidableEq, Repr

/-- What the host does at the block: it offers a command (30_encoding.md R85), or applies a block reset
(70_reset_and_hazards.md R230). -/
inductive HostAction where
  | command (word len : Word)
  | blockReset
  deriving DecidableEq, Repr

/-- The state. -/
structure State where
  /-- `st.fsm` (10_state.md R22, R23) -/
  fsm : Fsm
  /-- `st.lines`, `none` for no value (R22, R24, R25) -/
  lines : Option Nat
  /-- `st.seq`, the sequencer step (R21, R22) -/
  seq : BitVec 4
  /-- `st.busy` (R22, 45_transmit_primitives.md R170) -/
  busy : Bool
  /-- `st.rsp_valid` (R22, 45_transmit_primitives.md R171) -/
  rspValid : Bool
  /-- `st.rsp_result` (R22, codes of 30_encoding.md R90) -/
  rspResult : BitVec 3
  /-- `st.rsp_data` (R22, 30_encoding.md R91) -/
  rspData : Byte
  /-- `st.rsp_step` (R22, 30_encoding.md R91) -/
  rspStep : BitVec 4
  /-- model: the parameter `P_INIT_GROUPING` (00_scope.md R10; log entry 6); no step writes it -/
  grouping : InitGrouping
  /-- model: what the host still does, in order (log entry 16) -/
  host : List HostAction
  /-- model: the payload bytes the host will still supply (30_encoding.md R89; log entry 16) -/
  payload : List Byte
  /-- model: the transport's next draws, one for each transport event (log entry 2) -/
  draws : List Draw
  /-- model: how many transport events have been emitted, the index of `Config.draw` (log entry 2) -/
  drawCount : Nat
  /-- model: how many free values have been used (log entries 4 and 5) -/
  freeCount : Nat
  /-- model: a byte word at the transmit stage or the status decoder (log entry 8) -/
  stage : Option (ByteFormat × Byte)
  /-- model: the transport events and waits emitted since reset, oldest first (log entry 15) -/
  trace : List Event
  deriving DecidableEq, Repr

/-- No instruction and no state of the block faults: it has no trap mechanism, every outcome is a result code
(60_exceptions.md R200, R206), so this type has no constructor. -/
inductive Fault where
  deriving DecidableEq, Repr

/-- Why a step has no meaning. -/
inductive Refusal where
  /-- raised by an arm of `exec` whose instruction has no meaning yet; safe -/
  | notModelled (mnemonic : String)
  /-- raised by `step` for a byte at the transmit stage that is no row of the opcode table under its format: the block
  can emit no such byte (30_encoding.md R69, R72); no command brings one there (log entry 19); safe -/
  | unlistedByte (reason : Reject)
  deriving DecidableEq, Repr

/-- The machine right after block reset (10_state.md R22, 70_reset_and_hazards.md R230). The three response fields have
no reset value in the spec: 0 is a DESIGN CHOICE, log entry 1. The model's own fields: log entries 2, 4, 6, 8, 15, 16. -/
def State.reset : State where
  fsm := .uninit
  lines := none
  seq := 0
  busy := false
  rspValid := false
  rspResult := 0
  rspData := 0
  rspStep := 0
  grouping := .perInstruction
  host := []
  payload := []
  draws := []
  drawCount := 0
  freeCount := 0
  stage := none
  trace := []

/-! ## Named updates -/

namespace State

/-- An event or wait is appended to the trace. -/
def record (s : State) (e : Event) : State := { s with trace := s.trace ++ [e] }

/-- One draw of the transport is used up. -/
def tookDraw (s : State) : State := { s with draws := s.draws.tail, drawCount := s.drawCount + 1 }

/-- One index of the free values is used up. -/
def tookFree (s : State) : State := { s with freeCount := s.freeCount + 1 }

def setFsm (s : State) (v : Fsm) : State := { s with fsm := v }

def setLines (s : State) (v : Option Nat) : State := { s with lines := v }

def setSeq (s : State) (v : BitVec 4) : State := { s with seq := v }

def setBusy (s : State) (v : Bool) : State := { s with busy := v }

def setRspValid (s : State) (v : Bool) : State := { s with rspValid := v }

/-- The three response fields at once. -/
def setResponse (s : State) (result : BitVec 3) (data : Byte) (step : BitVec 4) : State :=
  { s with rspResult := result, rspData := data, rspStep := step }

def setHost (s : State) (v : List HostAction) : State := { s with host := v }

def setPayload (s : State) (v : List Byte) : State := { s with payload := v }

def setStage (s : State) (v : Option (ByteFormat × Byte)) : State := { s with stage := v }

end State

end Sys2Proof.Machine
end

