-- ==== Sys2Proof/Machine/Operands.lean ====
section
/-! DEFINITION. The hardwired constants (10_state.md R26), the result codes and the assembly of operands into opcodes
(30_encoding.md R80). -/

namespace Sys2Proof.Machine

/-- `DEV_ADDR`, the one bus address the block emits (10_state.md R26, 20_memory.md R41). -/
def devAddr : Addr7 := 0x3E

/-- `SEL_IR` (10_state.md R26, 30_encoding.md R72). -/
def selIR : Byte := 0x00

/-- `SEL_DR` (10_state.md R26, 30_encoding.md R72). -/
def selDR : Byte := 0x40

/-- `ROW1_BASE` (10_state.md R26). -/
def row1Base : Byte := 0x40

/-- `INIT_SEQ[1..9]` (10_state.md R26, 40_init_sequencer.md R101). -/
def initSeq : List Byte := [0x38, 0x39, 0x14, 0x79, 0x50, 0x6C, 0x0C, 0x01, 0x06]

/-- The payload of the `BATCHED` batch: `INIT_SEQ[3..9]` (40_init_sequencer.md R103). -/
def initBatch : List Byte := [0x14, 0x79, 0x50, 0x6C, 0x0C, 0x01, 0x06]

/-- The code of a mode (10_state.md R22). -/
def Fsm.code : Fsm → BitVec 2
  | .uninit => 0
  | .initializing => 1
  | .ready => 2

/-- The code of a result on `rsp_result` (30_encoding.md R90). -/
def Result.code : Result → BitVec 3
  | .ok => 0
  | .ignored => 1
  | .notReady => 2
  | .busError => 3
  | .readFailure => 4
  | .invalidCommand => 5

/-- A boolean operand at bit `k` of a byte: `b << k` (00_scope.md R11). -/
def bitAt (b : Bool) (k : Nat) : Byte := (BitVec.ofBool b).setWidth 8 <<< k

/-- 30_encoding.md R61. -/
def clearOpcode : Byte := 0x01

/-- 30_encoding.md R62. -/
def homeOpcode : Byte := 0x02

/-- `0x04 | inc<<1 | shift` (30_encoding.md R63). -/
def entryModeOpcode (inc shift : Bool) : Byte := 0x04 ||| bitAt inc 1 ||| bitAt shift 0

/-- `0x08 | on<<2 | cursor<<1 | blink` (30_encoding.md R64). -/
def displayCtrlOpcode (on cursor blink : Bool) : Byte := 0x08 ||| bitAt on 2 ||| bitAt cursor 1 ||| bitAt blink 0

/-- `0x10 | SC<<3 | R<<2` (30_encoding.md R65). -/
def shiftOpcode (screen right : Bool) : Byte := 0x10 ||| bitAt screen 3 ||| bitAt right 2

/-- `0x20 | DL<<4 | N<<3 | DH<<2 | IS` (30_encoding.md R66). -/
def functionSetOpcode (eightBit twoLine fontHeight extended : Bool) : Byte :=
  0x20 ||| bitAt eightBit 4 ||| bitAt twoLine 3 ||| bitAt fontHeight 2 ||| bitAt extended 0

/-- `0x40 | a6` (30_encoding.md R67). -/
def setCgramOpcode (addr : BitVec 6) : Byte := 0x40 ||| addr.setWidth 8

/-- `0x80 | a` for an 8-bit `a` (30_encoding.md R68). -/
def setDdramOpcode (a : Byte) : Byte := 0x80 ||| a

/-- `(base + col) mod 2^8` with base `0x00` for row 0 and `ROW1_BASE` for row 1 (43_instruction_commands.md R148). -/
def rowColumnAddress (col : Byte) (row : Nat) : Byte := (if row = 1 then row1Base else 0x00) + col

end Sys2Proof.Machine
end

