-- ==== Sys2Proof/Machine/Flags.lean ====
section
/-! DEFINITION. The block has no flags of its own (10_state.md R27); the one flag of the spec is the busy flag of the
status byte, and this file is its decoder. -/

namespace Sys2Proof.Machine

/-- `StatusDecode(v)`: the busy flag `v[7]` and the address `v[6:0]` (44_status_read.md R161). -/
def statusDecode (v : Byte) : Bool × Addr7 := (v.getLsbD 7, v.extractLsb' 0 7)

/-- The raw status byte that a busy flag and an address make: `BF A6 .. A0` (30_encoding.md R78). -/
def statusEncode (busy : Bool) (addr : Addr7) : Byte := bitAt busy 7 ||| addr.setWidth 8

/-- `zext_8(busy)` (44_status_read.md R162). -/
def busyData (v : Byte) : Byte := bitAt (statusDecode v).1 0

/-- `zext_8(addr)` (44_status_read.md R163). -/
def addressData (v : Byte) : Byte := (statusDecode v).2.setWidth 8

end Sys2Proof.Machine
end

