-- ==== Sys2Proof/Machine/Ops.lean ====
section
/-! DEFINITION. The shared operations: the transport primitives (00_scope.md R13, R14), `finish` and `raise` (R15), the
transmit primitives and the readiness gate (45_transmit_primitives.md R170 to R176), and block reset. -/

namespace Sys2Proof.Machine

/-- How a piece of a command ends: it returns a value and the command goes on, or a transport event (or the payload)
never completed and the block stays as it is (70_reset_and_hazards.md R242). -/
inductive Run (α : Type) where
  | done (value : α) (s : State)
  | hung (s : State)

/-- Sequencing: what follows an operation that hung does not happen. -/
def Run.bind {α β : Type} (r : Run α) (next : α → State → Run β) : Run β :=
  match r with
  | .done value s => next value s
  | .hung s => .hung s

/-- The state in which a piece of a command ended. -/
def Run.state {α : Type} : Run α → State
  | .done _ s => s
  | .hung s => s

/-! ## Transport draws -/

/-- The draw for the transport event that comes after `k` others: from the list, past its end the free value
(00_scope.md R13; log entry 2). -/
def State.drawAt (s : State) (k : Nat) : Draw := (s.draws[k]?).getD (Config.draw (s.drawCount + k))

/-- What `BusEnd` returns if it is the event after `k` others (00_scope.md R13). -/
def State.statusAt (s : State) (k : Nat) : BusStatus := (s.drawAt k).status

/-- What `BusRequest` returns if it is the event after `k` others (00_scope.md R13). -/
def State.readAt (s : State) (k : Nat) : ReadAnswer := (s.drawAt k).read

/-- Each of the next `n` transport events completes. -/
abbrev State.completes (s : State) (n : Nat) : Prop := ∀ k, k < n → s.drawAt k ≠ .never

/-! ## Transport primitives -/

/-- A transport event that returns nothing: `BusConfigure`, `BusBegin`, `BusWrite` (00_scope.md R13). -/
def emit (e : Event) (s : State) : Run Unit :=
  match s.drawAt 0 with
  | .never => .hung (s.tookDraw.record e)
  | .answer _ _ => .done () (s.tookDraw.record e)

/-- Events one after the other. -/
def emitAll : List Event → State → Run Unit
  | [], s => .done () s
  | e :: es, s => (emit e s).bind fun _ s => emitAll es s

/-- `BusEnd()` (00_scope.md R13, 45_transmit_primitives.md R176). -/
def busEnd (s : State) : Run BusStatus :=
  match s.drawAt 0 with
  | .never => .hung (s.tookDraw.record (.busEnd none))
  | .answer status _ => .done status (s.tookDraw.record (.busEnd (some status)))

/-- `BusRequest(a7)` (00_scope.md R13, 45_transmit_primitives.md R176). -/
def busRequest (a : Addr7) (s : State) : Run ReadAnswer :=
  match s.drawAt 0 with
  | .never => .hung (s.tookDraw.record (.busRequest a none))
  | .answer _ read => .done read (s.tookDraw.record (.busRequest a (some read)))

/-- A read transaction whose answer is the given byte (log entry 11). -/
def busRequestAnswered (a : Addr7) (v : Byte) (s : State) : Run Unit :=
  match s.drawAt 0 with
  | .never => .hung (s.tookDraw.record (.busRequest a none))
  | .answer _ _ => .done () (s.tookDraw.record (.busRequest a (some (.byte v))))

/-- `Wait(t)` (00_scope.md R14): no draw, it always elapses. -/
def waitFor (w : WaitKind) (s : State) : State := s.record (.wait w)

/-! ## Acceptance, response, errors -/

/-- Acceptance of a command: `st.busy <- 1`, `st.rsp_valid <- 0` (45_transmit_primitives.md R170). -/
def accept (s : State) : State := (s.setBusy true).setRspValid false

/-- `finish(result, data, step)` (00_scope.md R15, 45_transmit_primitives.md R171). -/
def finish (result : Result) (data : Byte) (step : BitVec 4) (s : State) : Run Unit :=
  .done () (((s.setResponse result.code data step).setRspValid true).setBusy false)

/-- `raise E(step)`, the block's one way of taking an error: `finish(E, 0x00, step)` (00_scope.md R15). It saves nothing
and transfers control nowhere (60_exceptions.md R208), and there is no return from it (R209). -/
def raise (error : Result) (step : BitVec 4) (s : State) : Run Unit := finish error 0x00 step s

/-- `Gate()` and what follows it (45_transmit_primitives.md R174). -/
def gated (body : State → Run Unit) (s : State) : Run Unit :=
  if s.fsm = .ready then body s else raise .notReady 0 s

/-! ## Transmit primitives -/

/-- `Tx(sel, p[0..n-1])`: one write transaction (45_transmit_primitives.md R172, 30_encoding.md R73). -/
def tx (sel : Byte) (p : List Byte) (s : State) : Run BusStatus :=
  (emitAll (.busBegin devAddr :: .busWrite sel :: p.map .busWrite) s).bind fun _ s => busEnd s

/-- `WriteInstruction(op)`: the transaction, then the settle wait whatever its status (45_transmit_primitives.md
R173). -/
def writeInstruction (op : Byte) (s : State) : Run BusStatus :=
  (tx selIR [op] s).bind fun status s => .done status (waitFor .settle s)

/-- `WriteData(d[0..n-1])`: no wait (45_transmit_primitives.md R175). -/
def writeData (d : List Byte) (s : State) : Run BusStatus := tx selDR d s

/-- The probe transaction: begin and end with no bytes (30_encoding.md R76). -/
def probe (s : State) : Run BusStatus :=
  (emit (.busBegin devAddr) s).bind fun _ s => busEnd s

/-- The end of a command after its one write transaction (43_instruction_commands.md R140, 42_data_write.md R130). -/
def reportStatus (status : BusStatus) (s : State) : Run Unit :=
  match status with
  | .busError => raise .busError 0 s
  | .ok => finish .ok 0x00 0 s

/-- `INSTR(op)`, the common body of the instruction commands (43_instruction_commands.md R140). -/
def instr (op : Byte) : State → Run Unit :=
  gated fun s => (writeInstruction op s).bind reportStatus

/-- The common body of the status commands (44_status_read.md R160, R162, R163): one fresh read, and the response data
computed from the byte. -/
def statusRead (data : Byte → Byte) : State → Run Unit :=
  gated fun s => (busRequest devAddr s).bind fun r s =>
    match r with
    | .failure => finish .readFailure 0x00 0 s
    | .byte v => finish .ok (data v) 0 s

/-! ## A whole command, a whole primitive -/

/-- One accepted command is one step (45_transmit_primitives.md R170). -/
def runCommand (body : State → Run Unit) (s : State) : Host.Outcome State Fault Refusal :=
  .next (body (accept s)).state

/-- A command word that is invalid: accepted and finished with `INVALID_COMMAND` (30_encoding.md R88, 60_exceptions.md
R204). -/
def invalidCommand (s : State) : Host.Outcome State Fault Refusal :=
  runCommand (raise .invalidCommand 0) s

/-- The state a primitive leaves that runs for a byte word by itself (log entry 8): a hung one leaves the block busy
with no response (70_reset_and_hazards.md R242). -/
def primitiveState {α : Type} : Run α → State
  | .done _ s => s
  | .hung s => (s.setBusy true).setRspValid false

/-- A transmit primitive run by itself for a byte word of the opcode table (log entry 8). -/
def runPrimitive {α : Type} (primitive : State → Run α) (s : State) : Host.Outcome State Fault Refusal :=
  .next (primitiveState (primitive s))

/-! ## Block reset -/

/-- Block reset: every field of 10_state.md R22 at its reset value (70_reset_and_hazards.md R230); the outside (inputs
still to come, what was emitted) is not the block's and stays. -/
def blockReset (s : State) : State :=
  { s with
    fsm := .uninit, lines := none, seq := 0, busy := false, rspValid := false
    rspResult := 0, rspData := 0, rspStep := 0 }

end Sys2Proof.Machine
end

