-- ==== Sys2Proof/Machine/Availability.lean ====
section
/-! DEFINITION. The device probe (41_availability.md). -/

namespace Sys2Proof.Machine

/-- `IS_AVAILABLE` (41_availability.md R120): not gated (R121); the status of the probe is the answer (R122). -/
def execIsAvailable (s : State) : Host.Outcome State Fault Refusal :=
  runCommand (fun s => (probe s).bind fun status s =>
    match status with
    | .ok => finish .ok 0x01 0 s
    | .busError => finish .ok 0x00 0 s) s

end Sys2Proof.Machine
end

