-- ==== Sys2Proof/Machine/DataWrite.lean ====
section
/-! DEFINITION. The data writes `PRINT_BYTE` and `PRINT_SEQ` (42_data_write.md). -/

namespace Sys2Proof.Machine

/-- `PRINT_BYTE b` (42_data_write.md R130). -/
def execPrintByte (b : Byte) (s : State) : Host.Outcome State Fault Refusal :=
  runCommand (gated fun s => (writeData [b] s).bind reportStatus) s

/-- The payload stream after a data transaction of the bytes `d`, begun in `s`, hung in `t`: every byte put on the bus
has been taken, and a free number of the others of `d` (log entry 5). -/
def payloadHung (s t : State) (d : List Byte) : State :=
  let written := t.trace.length - s.trace.length - 2
  (t.setPayload (s.payload.drop (min d.length (max written (Config.payloadTaken s.freeCount))))).tookFree

/-- The data transaction of `PRINT_SEQ` (42_data_write.md R131) over the `n` next bytes of the payload stream
(30_encoding.md R89). Where the host supplies fewer than `n`, the block takes them all and waits for ever; how many
events of the transaction it has emitted by then is a free value (log entry 4). -/
def sendPayload (n : Nat) (s : State) : Run BusStatus :=
  let d := s.payload.take n
  if n ≤ s.payload.length then
    match writeData d s with
    | .done status t => .done status (t.setPayload (s.payload.drop n))
    | .hung t => .hung (payloadHung s t d)
  else
    let events := Event.busBegin devAddr :: Event.busWrite selDR :: d.map Event.busWrite
    match emitAll (events.take (Config.stallEvents s.freeCount)) s with
    | .done _ t => .hung (t.setPayload []).tookFree
    | .hung t => .hung (payloadHung s t d)

/-- `PRINT_SEQ` with `n = cmd_len` (42_data_write.md R131): a gated command takes no payload byte. -/
def execPrintSeq (n : Nat) (s : State) : Host.Outcome State Fault Refusal :=
  runCommand (gated fun s => (sendPayload n s).bind reportStatus) s

end Sys2Proof.Machine
end

