-- ==== Sys2Proof/Machine/InitSequencer.lean ====
section
/-! DEFINITION. `INIT` and the initialization sequencer (40_init_sequencer.md R100 to R111). -/

namespace Sys2Proof.Machine

/-- The failure of init transaction `k` (40_init_sequencer.md R105). -/
def initFailed (k : BitVec 4) (s : State) : Run Unit :=
  raise .busError k (((s.setFsm .uninit).setLines none).setSeq 0)

/-- The success of the whole sequence, after the tail wait (40_init_sequencer.md R106). -/
def initDone (lineCount : Nat) (s : State) : Run Unit :=
  finish .ok 0x00 0 (((s.setLines (some lineCount)).setFsm .ready).setSeq 0)

/-- The loop of 40_init_sequencer.md R100: transactions `k`, `k + 1`, … of the remaining bytes, the gap after the first
(R104), the tail wait after the last (R106). -/
def initSteps (lineCount : Nat) : List Byte → BitVec 4 → State → Run Unit
  | [], _, s => initDone lineCount (waitFor .initTail s)
  | op :: ops, k, s =>
    (writeInstruction op (s.setSeq k)).bind fun status s =>
      match status with
      | .busError => initFailed k s
      | .ok => initSteps lineCount ops (k + 1) (if k = 1 then waitFor .fsGap s else s)

/-- The body of `P_INIT_GROUPING = BATCHED` after `BusConfigure` (40_init_sequencer.md R103). -/
def initBatched (lineCount : Nat) (s : State) : Run Unit :=
  (writeInstruction 0x38 (s.setSeq 1)).bind fun status s =>
    match status with
    | .busError => initFailed 1 s
    | .ok =>
      (writeInstruction 0x39 ((waitFor .fsGap s).setSeq 2)).bind fun status s =>
        match status with
        | .busError => initFailed 2 s
        | .ok =>
          (tx selIR initBatch (s.setSeq 3)).bind fun status s =>
            match status with
            | .busError => initFailed 3 (waitFor .initTail s)
            | .ok => initDone lineCount (waitFor .initTail s)

/-- `INIT` in either grouping: not gated (40_init_sequencer.md R111), one `BusConfigure` first (R107). -/
def initCommand (lineCount : Nat) (s : State) : Run Unit :=
  (emit .busConfigure (s.setFsm .initializing)).bind fun _ s =>
    match s.grouping with
    | .perInstruction => initSteps lineCount initSeq 1 s
    | .batched => initBatched lineCount s

/-- `INIT lineCount` (40_init_sequencer.md R100). -/
def execInit (lineCount : Nat) (s : State) : Host.Outcome State Fault Refusal :=
  runCommand (initCommand lineCount) s

end Sys2Proof.Machine
end

