-- ==== Sys2Proof/Machine/InstructionCommands.lean ====
section
/-! DEFINITION. The commands that send one instruction byte (43_instruction_commands.md). -/

namespace Sys2Proof.Machine

/-- `CLEAR` (43_instruction_commands.md R141). -/
def execClear (s : State) : Host.Outcome State Fault Refusal :=
  runCommand (instr clearOpcode) s

/-- `HOME` (R142). -/
def execHome (s : State) : Host.Outcome State Fault Refusal :=
  runCommand (instr homeOpcode) s

/-- `SET_ENTRY_MODE inc, shift` (R143). -/
def execSetEntryMode (inc shift : Bool) (s : State) : Host.Outcome State Fault Refusal :=
  runCommand (instr (entryModeOpcode inc shift)) s

/-- `SET_ON_OFF on, cursor, blink` (R144). -/
def execSetOnOff (on cursor blink : Bool) (s : State) : Host.Outcome State Fault Refusal :=
  runCommand (instr (displayCtrlOpcode on cursor blink)) s

/-- `SET_SCREEN_SHIFT right` (R145). -/
def execSetScreenShift (right : Bool) (s : State) : Host.Outcome State Fault Refusal :=
  runCommand (instr (shiftOpcode true right)) s

/-- `SET_CURSOR_SHIFT right` (R146). -/
def execSetCursorShift (right : Bool) (s : State) : Host.Outcome State Fault Refusal :=
  runCommand (instr (shiftOpcode false right)) s

/-- `SET_DATA_ADDRESS addr` (R147). -/
def execSetDataAddress (addr : Addr7) (s : State) : Host.Outcome State Fault Refusal :=
  runCommand (instr (setDdramOpcode (addr.setWidth 8))) s

/-- `SET_DATA_ADDRESS_CR col, row` (R148): row 1 is `IGNORED` unless two lines are configured (R151). -/
def execSetDataAddressCr (col : Byte) (row : Nat) (s : State) : Host.Outcome State Fault Refusal :=
  runCommand (gated fun s =>
    if row = 1 ∧ s.lines ≠ some 2 then finish .ignored 0x00 0 s
    else instr (setDdramOpcode (rowColumnAddress col row)) s) s

end Sys2Proof.Machine
end

