-- ==== Sys2Proof/Machine/StatusRead.lean ====
section
/-! DEFINITION. The commands that read the status byte (44_status_read.md). -/

namespace Sys2Proof.Machine

/-- `GET_STATUS` (44_status_read.md R160): the raw byte. -/
def execGetStatus (s : State) : Host.Outcome State Fault Refusal :=
  runCommand (statusRead fun v => v) s

/-- `GET_IS_BUSY` (R162). -/
def execGetIsBusy (s : State) : Host.Outcome State Fault Refusal :=
  runCommand (statusRead busyData) s

/-- `GET_ADDRESS` (R163). -/
def execGetAddress (s : State) : Host.Outcome State Fault Refusal :=
  runCommand (statusRead addressData) s

end Sys2Proof.Machine
end

