-- ==== Sys2Proof/Machine/TransmitWords.lean ====
section
/-! DEFINITION. The byte-format rows of the opcode table: what the block does with the byte at its transmit stage or its
status decoder (log entry 8). An instruction byte of either table is sent by `WriteInstruction` (45_transmit_primitives.md
R173), a data byte by `WriteData` (R175), a selector is the transaction that carries it alone (R172), a status byte is
what a read transaction returns (30_encoding.md R77, R78). None of them is a command: no response is given. -/

namespace Sys2Proof.Machine

/-- 30_encoding.md R61. -/
def execLcdClear (s : State) : Host.Outcome State Fault Refusal :=
  runPrimitive (writeInstruction clearOpcode) s

/-- 30_encoding.md R62. -/
def execLcdReturnHome (s : State) : Host.Outcome State Fault Refusal :=
  runPrimitive (writeInstruction homeOpcode) s

/-- 30_encoding.md R63. -/
def execLcdEntryModeSet (inc shift : Bool) (s : State) : Host.Outcome State Fault Refusal :=
  runPrimitive (writeInstruction (entryModeOpcode inc shift)) s

/-- 30_encoding.md R64. -/
def execLcdDisplayControl (on cursor blink : Bool) (s : State) : Host.Outcome State Fault Refusal :=
  runPrimitive (writeInstruction (displayCtrlOpcode on cursor blink)) s

/-- 30_encoding.md R65. -/
def execLcdCursorDisplayShift (screen right : Bool) (s : State) : Host.Outcome State Fault Refusal :=
  runPrimitive (writeInstruction (shiftOpcode screen right)) s

/-- 30_encoding.md R66 (log entry 12: no command takes function-set operands). -/
def execLcdFunctionSet (eightBit twoLine fontHeight extended : Bool) (s : State) : Host.Outcome State Fault Refusal :=
  runPrimitive (writeInstruction (functionSetOpcode eightBit twoLine fontHeight extended)) s

/-- 30_encoding.md R67 (log entry 12: no command emits it). -/
def execLcdSetCgramAddress (addr : BitVec 6) (s : State) : Host.Outcome State Fault Refusal :=
  runPrimitive (writeInstruction (setCgramOpcode addr)) s

/-- 30_encoding.md R68. -/
def execLcdSetDdramAddress (addr : Addr7) (s : State) : Host.Outcome State Fault Refusal :=
  runPrimitive (writeInstruction (setDdramOpcode (addr.setWidth 8))) s

/-- `0x14`, 30_encoding.md R70. -/
def execExtOscFrequency (s : State) : Host.Outcome State Fault Refusal :=
  runPrimitive (writeInstruction 0x14) s

/-- `0x79`, 30_encoding.md R70. -/
def execExtContrastLow (s : State) : Host.Outcome State Fault Refusal :=
  runPrimitive (writeInstruction 0x79) s

/-- `0x50`, 30_encoding.md R70. -/
def execExtPowerIconContrastHigh (s : State) : Host.Outcome State Fault Refusal :=
  runPrimitive (writeInstruction 0x50) s

/-- `0x6C`, 30_encoding.md R70. -/
def execExtFollowerControl (s : State) : Host.Outcome State Fault Refusal :=
  runPrimitive (writeInstruction 0x6C) s

/-- `0x00`, 30_encoding.md R72; `Tx(SEL_IR, [])` (log entry 10). -/
def execSelectorInstruction (s : State) : Host.Outcome State Fault Refusal :=
  runPrimitive (tx selIR []) s

/-- `0x40`, 30_encoding.md R72; `Tx(SEL_DR, [])` (log entry 10). -/
def execSelectorData (s : State) : Host.Outcome State Fault Refusal :=
  runPrimitive (tx selDR []) s

/-- 30_encoding.md R75. -/
def execDataByte (d : Byte) (s : State) : Host.Outcome State Fault Refusal :=
  runPrimitive (writeData [d]) s

/-- 30_encoding.md R78: the read transaction that returns this byte (log entry 11); the decoder's split of it is the two
operands (44_status_read.md R161), and nothing stores them (10_state.md R27). -/
def execStatusByte (busy : Bool) (addr : Addr7) (s : State) : Host.Outcome State Fault Refusal :=
  runPrimitive (busRequestAnswered devAddr (statusEncode busy addr)) s

end Sys2Proof.Machine
end

