-- ==== Sys2Proof/Machine/Dispatch.lean ====
section
/-! DEFINITION. One arm per row of the opcode table (45_transmit_primitives.md R177). -/

namespace Sys2Proof.Machine

def exec (i : Instr) (s : State) : Host.Outcome State Fault Refusal :=
  match i with
  | .init lineCount => Sys2Proof.Machine.execInit lineCount s
  | .isAvailable => Sys2Proof.Machine.execIsAvailable s
  | .printByte b => Sys2Proof.Machine.execPrintByte b s
  | .printSeq n => Sys2Proof.Machine.execPrintSeq n s
  | .clear => Sys2Proof.Machine.execClear s
  | .home => Sys2Proof.Machine.execHome s
  | .setEntryMode inc shift => Sys2Proof.Machine.execSetEntryMode inc shift s
  | .setOnOff on cursor blink => Sys2Proof.Machine.execSetOnOff on cursor blink s
  | .setScreenShift right => Sys2Proof.Machine.execSetScreenShift right s
  | .setCursorShift right => Sys2Proof.Machine.execSetCursorShift right s
  | .setDataAddress addr => Sys2Proof.Machine.execSetDataAddress addr s
  | .setDataAddressCr col row => Sys2Proof.Machine.execSetDataAddressCr col row s
  | .getStatus => Sys2Proof.Machine.execGetStatus s
  | .getIsBusy => Sys2Proof.Machine.execGetIsBusy s
  | .getAddress => Sys2Proof.Machine.execGetAddress s
  | .lcdClear => Sys2Proof.Machine.execLcdClear s
  | .lcdReturnHome => Sys2Proof.Machine.execLcdReturnHome s
  | .lcdEntryModeSet inc shift => Sys2Proof.Machine.execLcdEntryModeSet inc shift s
  | .lcdDisplayControl on cursor blink => Sys2Proof.Machine.execLcdDisplayControl on cursor blink s
  | .lcdCursorDisplayShift screen right => Sys2Proof.Machine.execLcdCursorDisplayShift screen right s
  | .lcdFunctionSet eightBit twoLine fontHeight extended => Sys2Proof.Machine.execLcdFunctionSet eightBit twoLine fontHeight extended s
  | .lcdSetCgramAddress addr => Sys2Proof.Machine.execLcdSetCgramAddress addr s
  | .lcdSetDdramAddress addr => Sys2Proof.Machine.execLcdSetDdramAddress addr s
  | .extOscFrequency => Sys2Proof.Machine.execExtOscFrequency s
  | .extContrastLow => Sys2Proof.Machine.execExtContrastLow s
  | .extPowerIconContrastHigh => Sys2Proof.Machine.execExtPowerIconContrastHigh s
  | .extFollowerControl => Sys2Proof.Machine.execExtFollowerControl s
  | .selectorInstruction => Sys2Proof.Machine.execSelectorInstruction s
  | .selectorData => Sys2Proof.Machine.execSelectorData s
  | .dataByte d => Sys2Proof.Machine.execDataByte d s
  | .statusByte busy addr => Sys2Proof.Machine.execStatusByte busy addr s

end Sys2Proof.Machine
end

