-- ==== Sys2Proof/Machine/Fetch.lean ====
section
/-! DEFINITION. What the block takes up next: the acceptance rule of 45_transmit_primitives.md R170 and R177, block
reset (70_reset_and_hazards.md R230), and the model's port for byte words (log entry 8). -/

namespace Sys2Proof.Machine

/-- What a step finds to do. -/
inductive Fetched where
  /-- block reset, then the state -/
  | blockReset (s : State)
  /-- a command that is running and never ends, or an idle block with nothing offered -/
  | nothing
  /-- an invalid command word, taken from the port -/
  | invalid (s : State)
  /-- an instruction, with its word taken from where it stood -/
  | run (i : Instr) (s : State)
  /-- a byte at the transmit stage that is no row of the table -/
  | unlisted (r : Reject)

/-- A busy block accepts nothing; an offered command waits unchanged (R170); only a block reset ends that
(70_reset_and_hazards.md R242), and it overtakes the waiting commands (log entry 18). An idle block takes up what is
offered (R170), and with nothing offered does nothing (R180). -/
def fetch (s : State) : Fetched :=
  if s.busy then
    if HostAction.blockReset ∈ s.host then .blockReset (s.setHost (s.host.erase .blockReset)) else .nothing
  else
    match s.stage with
    | some (format, byte) =>
      match decode (.byteWord format byte) with
      | .instr i => .run i (s.setStage none)
      | .rejected r => .unlisted r
    | none =>
      match s.host with
      | [] => .nothing
      | .blockReset :: rest => .blockReset (s.setHost rest)
      | .command word len :: rest =>
        match decode (.command word len) with
        | .instr i => .run i (s.setHost rest)
        | .rejected _ => .invalid (s.setHost rest)

/-- A code word put where `fetch` finds it next: a command offered at an idle block's port before every other host
action, a byte at the transmit stage (log entries 8 and 16). -/
def placeCodeWord (c : CodeWord) (s : State) : State :=
  match c with
  | .command word len => ((s.setBusy false).setStage none).setHost (.command word len :: s.host)
  | .byteWord format byte => (s.setBusy false).setStage (some (format, byte))

end Sys2Proof.Machine
end

