-- ==== Sys2Proof/Machine/Step.lean ====
section
/-! DEFINITION. One step: one accepted command (45_transmit_primitives.md R170), one byte word, one block reset, or
nothing. -/

namespace Sys2Proof.Machine

/-- One step of the block. -/
def step (s : State) : Host.Outcome State Fault Refusal :=
  match fetch s with
  | .blockReset t => .next (blockReset t)
  | .nothing => .next s
  | .invalid t => invalidCommand t
  | .run i t => exec i t
  | .unlisted r => .refused (.unlistedByte r)

/-- The state whose very next step runs the given word of the opcode table (log entries 9 and 16). -/
def State.withFetchWord (s : State) (nbits w : Nat) : State := placeCodeWord (tableCodeWord nbits w) s

end Sys2Proof.Machine
end

