-- ==== Sys2Proof/Safety.lean ====
section
/-! DEFINITION. The terms the claims use: the invariant of the block's fields, the shape of what the block puts on the
bus, the rows of the opcode table, the response and the observation of a run. -/

namespace Sys2Proof.Machine

/-! ## The invariant -/

/-- What every state the block can be in satisfies: the legal values of 10_state.md R22 and R25, when the sequencer
fields are idle (R22, 60_exceptions.md R211), and what a valid response can hold (30_encoding.md R90, R91). -/
structure State.Inv (s : State) : Prop where
  lines_legal : s.lines = none ∨ s.lines = some 1 ∨ s.lines = some 2
  ready_lines : s.fsm = .ready → s.lines ≠ none
  uninit_lines : s.fsm = .uninit → s.lines = none
  initializing_busy : s.fsm = .initializing → s.busy = true
  seq_idle : s.fsm ≠ .initializing → s.seq = 0
  seq_range : s.seq.toNat ≤ 9
  busy_no_response : s.busy = true → s.rspValid = false
  result_legal : s.rspValid = true → s.rspResult.toNat ≤ 5
  data_of_error : s.rspValid = true → s.rspResult ≠ Result.ok.code → s.rspData = 0
  step_of_init_error : s.rspValid = true → s.rspStep ≠ 0 → s.rspResult = Result.busError.code ∧ s.fsm = .uninit
  step_range : s.rspValid = true → s.rspStep.toNat ≤ 9

/-! ## What goes over the bus -/

/-- The events of a write transaction that ended with the given status (30_encoding.md R73). -/
def txEvents (sel : Byte) (p : List Byte) (status : BusStatus) : List Event :=
  [.busBegin devAddr, .busWrite sel] ++ p.map .busWrite ++ [.busEnd (some status)]

/-- Is this entry of the trace a transport event, one that uses a draw (00_scope.md R13, R14)? -/
def Event.isTransport : Event → Bool
  | .wait _ => false
  | .busConfigure | .busBegin _ | .busWrite _ | .busEnd _ | .busRequest _ _ => true

/-- The state after these entries were added to the trace, each transport event among them using one draw. -/
def State.afterEvents (s : State) (events : List Event) : State :=
  { s with
    trace := s.trace ++ events
    draws := s.draws.drop (events.countP Event.isTransport)
    drawCount := s.drawCount + events.countP Event.isTransport }

/-- The state with a response given and the command ended (45_transmit_primitives.md R171). -/
def State.responded (s : State) (result : Result) (data : Byte) (step : BitVec 4) : State :=
  { s with busy := false, rspValid := true, rspResult := result.code, rspData := data, rspStep := step }

/-- The result of a command whose outcome is that of its one write transaction (60_exceptions.md R200, R201). -/
def statusResult : BusStatus → Result
  | .ok => .ok
  | .busError => .busError

/-- The opcodes the block's commands can send (30_encoding.md R69: the values of R61 to R66, R68 and R70). -/
def emittedOpcode (op : Byte) : Bool :=
  op == 0x01 || op == 0x02 || (0x04 ≤ op.toNat && op.toNat ≤ 0x0F) || op == 0x10 || op == 0x14 || op == 0x18 ||
  op == 0x1C || op == 0x38 || op == 0x39 || op == 0x50 || op == 0x6C || op == 0x79 || 0x80 ≤ op.toNat

/-- Where an observer of the bus stands (30_encoding.md R73 to R77). -/
inductive BusPhase where
  /-- between transactions -/
  | idle
  /-- after `BusBegin(DEV_ADDR)` -/
  | begun
  /-- after the selector `0x00`, no opcode yet -/
  | irSelected
  /-- after the selector `0x00` and at least one opcode -/
  | irPayload
  /-- after the selector `0x40` and any number of data bytes -/
  | drPayload
  /-- after an event that never completed -/
  | dead
  deriving DecidableEq, Repr

/-- The phase after one more entry of the trace, `none` where the entry does not fit. -/
def BusPhase.after (p : BusPhase) (e : Event) : Option BusPhase :=
  match p, e with
  | .idle, .busConfigure => some .idle
  | .idle, .wait _ => some .idle
  | .idle, .busRequest a r => if a = devAddr then some (if r.isSome then .idle else .dead) else none
  | .idle, .busBegin a => if a = devAddr then some .begun else none
  | .begun, .busWrite b => if b = selIR then some .irSelected else if b = selDR then some .drPayload else none
  | .begun, .busEnd r => some (if r.isSome then .idle else .dead)
  | .irSelected, .busWrite b => if emittedOpcode b then some .irPayload else none
  | .irPayload, .busWrite b => if emittedOpcode b then some .irPayload else none
  | .irPayload, .busEnd r => some (if r.isSome then .idle else .dead)
  | .drPayload, .busWrite _ => some .drPayload
  | .drPayload, .busEnd r => some (if r.isSome then .idle else .dead)
  | _, _ => none

/-- The phase after the entries, `none` where they are no sequence of transactions. -/
def BusPhase.afterAll : BusPhase → List Event → Option BusPhase
  | p, [] => some p
  | p, e :: es => (p.after e).bind fun q => q.afterAll es

/-- The least total duration of the waits among the entries, in milliseconds (00_scope.md R14: lower bounds add up). -/
def minWaitMs : List Event → Nat
  | [] => 0
  | .wait w :: es => w.minMs + minWaitMs es
  | _ :: es => minWaitMs es

/-! ## The opcode table's command rows -/

/-- `match` and `mask` of the `cmd16` rows of the opcode table, in its order (30_encoding.md R81). -/
def commandRows : List (Word × Word) :=
  [(0x0000, 0xFEFF), (0x1000, 0xFFFF), (0x2000, 0xFF00), (0x3000, 0xFFFF), (0x4000, 0xFFFF), (0x5000, 0xFFFF),
   (0x6000, 0xFCFF), (0x7000, 0xF8FF), (0x8000, 0xFEFF), (0x9000, 0xFEFF), (0xA000, 0xFF80), (0xB000, 0xFE00),
   (0xC000, 0xFFFF), (0xD000, 0xFFFF), (0xE000, 0xFFFF)]

/-- A command word is valid for a row exactly when `word & mask = match` (30_encoding.md R81). -/
def validForSomeRow (w : Word) : Bool := commandRows.any fun row => w &&& row.2 == row.1

/-! ## Responses and observations -/

/-- What the host reads on the response port (30_encoding.md R85). -/
structure Response where
  result : BitVec 3
  data : Byte
  step : BitVec 4
  deriving DecidableEq, Repr

/-- The response port: nothing while `st.rsp_valid = 0` (10_state.md R22). -/
def State.response (s : State) : Option Response :=
  if s.rspValid then some ⟨s.rspResult, s.rspData, s.rspStep⟩ else none

/-- `cmd_ready = NOT st.busy` (30_encoding.md R85). -/
def State.cmdReady (s : State) : Bool := !s.busy

/-- The command word and `cmd_len` the host offers, if it offers any (30_encoding.md R85): `cmd_valid` is whether there
is one. -/
def State.offered (s : State) : Option (Word × Word) :=
  match s.host with
  | .command word len :: _ => some (word, len)
  | _ => none

/-- The command the next step accepts (45_transmit_primitives.md R170): one that is offered to an idle block. None is
accepted while a byte word stands at the model's own transmit stage (log entry 8). -/
def State.accepted (s : State) : Option (Word × Word) :=
  if s.busy then none
  else
    match s.stage with
    | some _ => none
    | none => s.offered

/-- The fields of 10_state.md R22 alone: `st`. -/
structure BlockState where
  fsm : Fsm
  lines : Option Nat
  seq : BitVec 4
  busy : Bool
  rspValid : Bool
  rspResult : BitVec 3
  rspData : Byte
  rspStep : BitVec 4
  deriving DecidableEq, Repr

/-- `st` of a state. -/
def State.block (s : State) : BlockState :=
  ⟨s.fsm, s.lines, s.seq, s.busy, s.rspValid, s.rspResult, s.rspData, s.rspStep⟩

/-- The (command, trace, response) triple of one accepted command (45_transmit_primitives.md R181). The response is
`none` for a command that never finishes. -/
structure Observation where
  command : Word × Word
  events : List Event
  response : Option Response
  deriving DecidableEq, Repr

/-- The triple of the accepted command `c`, whose step goes from `s` to `t`. -/
def observation (c : Word × Word) (s t : State) : Observation := ⟨c, t.trace.drop s.trace.length, t.response⟩

/-- A run so far: the triples of its accepted commands, in order, and the state it has come to
(45_transmit_primitives.md R181). -/
structure CommandRun where
  observed : List Observation
  final : State
  deriving DecidableEq, Repr

/-- The run of the commands accepted one after the other from `s`, at most `n`. Only a step that accepts a command
belongs to it: it stops where the block accepts none, idle, hung or before a block reset (R181). -/
def observe : Nat → State → CommandRun
  | 0, s => ⟨[], s⟩
  | n + 1, s =>
    match s.accepted with
    | none => ⟨[], s⟩
    | some c =>
      match step s with
      | .next t => ⟨observation c s t :: (observe n t).observed, (observe n t).final⟩
      | .fault _ => ⟨[], s⟩
      | .refused _ => ⟨[], s⟩

/-- The run has ended: the response of its last command has been given, `st.rsp_valid = 1` and `st.busy = 0`
(45_transmit_primitives.md R181). -/
def CommandRun.ended (r : CommandRun) : Bool := !r.observed.isEmpty && r.final.rspValid && !r.final.busy

/-- The observation of a run: its triples and the final `st` (45_transmit_primitives.md R181). -/
def CommandRun.observation (r : CommandRun) : List Observation × BlockState := (r.observed, r.final.block)

/-! ## The tables of the spec, as numbers

These say the same as the meanings' opcode assembly, in plain arithmetic, so that a claim compares two readings. -/

/-- The opcode an instruction command sends, column "opcode assembled" of 30_encoding.md R80 (43_instruction_commands.md
R141 to R148): `CLEAR`, `HOME`, `SET_ENTRY_MODE`, `SET_ON_OFF`, `SET_SCREEN_SHIFT`, `SET_CURSOR_SHIFT`,
`SET_DATA_ADDRESS`, `SET_DATA_ADDRESS_CR`. -/
def sentOpcode : Instr → Option Nat
  | .clear => some 0x01
  | .home => some 0x02
  | .setEntryMode inc shift => some (0x04 + 2 * inc.toNat + shift.toNat)
  | .setOnOff on cursor blink => some (0x08 + 4 * on.toNat + 2 * cursor.toNat + blink.toNat)
  | .setScreenShift right => some (0x18 + 4 * right.toNat)
  | .setCursorShift right => some (0x10 + 4 * right.toNat)
  | .setDataAddress addr => some (0x80 + addr.toNat)
  | .setDataAddressCr col row => some (0x80 + (0x40 * row + col.toNat) % 0x80)
  | _ => none

/-- The opcode of an instruction byte of either table (30_encoding.md R61 to R68, R70). -/
def wordOpcode : Instr → Option Nat
  | .lcdClear => some 0x01
  | .lcdReturnHome => some 0x02
  | .lcdEntryModeSet inc shift => some (0x04 + 2 * inc.toNat + shift.toNat)
  | .lcdDisplayControl on cursor blink => some (0x08 + 4 * on.toNat + 2 * cursor.toNat + blink.toNat)
  | .lcdCursorDisplayShift screen right => some (0x10 + 8 * screen.toNat + 4 * right.toNat)
  | .lcdFunctionSet eightBit twoLine fontHeight extended =>
      some (0x20 + 16 * eightBit.toNat + 8 * twoLine.toNat + 4 * fontHeight.toNat + extended.toNat)
  | .lcdSetCgramAddress addr => some (0x40 + addr.toNat)
  | .lcdSetDdramAddress addr => some (0x80 + addr.toNat)
  | .extOscFrequency => some 0x14
  | .extContrastLow => some 0x79
  | .extPowerIconContrastHigh => some 0x50
  | .extFollowerControl => some 0x6C
  | _ => none

/-- The response data of a status command for a status byte of the given value (30_encoding.md R91):
`GET_STATUS`, `GET_IS_BUSY`, `GET_ADDRESS`. -/
def statusData : Instr → Option (Nat → Nat)
  | .getStatus => some fun v => v
  | .getIsBusy => some fun v => v / 128
  | .getAddress => some fun v => v % 128
  | _ => none

/-- The bit positions of the command word that a command code uses, column "fields used" of 30_encoding.md R87. -/
def usedPositions (op : Nat) : List Nat :=
  match op with
  | 0x0 => [8]
  | 0x2 => [0, 1, 2, 3, 4, 5, 6, 7]
  | 0x6 => [8, 9]
  | 0x7 => [8, 9, 10]
  | 0x8 => [8]
  | 0x9 => [8]
  | 0xA => [0, 1, 2, 3, 4, 5, 6]
  | 0xB => [0, 1, 2, 3, 4, 5, 6, 7, 8]
  | _ => []

/-- `Invalid(w)`, the three conditions of 30_encoding.md R88. -/
def InvalidWord (w : Word) : Prop :=
  w.toNat / 4096 = 0xF ∨ w.getLsbD 11 = true ∨
    ∃ k, k < 11 ∧ w.getLsbD k = true ∧ k ∉ usedPositions (w.toNat / 4096)

/-- Which results a command can end with, column "raised by" of 60_exceptions.md R200. -/
def canEndWith (i : Instr) : Result → Bool
  | .ok => true
  | .ignored => match i with
    | .setDataAddressCr _ _ => true
    | _ => false
  | .notReady => match i with
    | .init _ | .isAvailable => false
    | _ => true
  | .busError => match i with
    | .isAvailable | .getStatus | .getIsBusy | .getAddress => false
    | _ => true
  | .readFailure => match i with
    | .getStatus | .getIsBusy | .getAddress => true
    | _ => false
  | .invalidCommand => false

/-- Which response data a command that ends `OK` can give (30_encoding.md R91). -/
def okData (i : Instr) (data : Byte) : Bool :=
  match i with
  | .getStatus => true
  | .getAddress => data.toNat ≤ 0x7F
  | .isAvailable | .getIsBusy => data == 0x00 || data == 0x01
  | _ => data == 0x00

/-- A number of transport events that the command does not exceed: 37 for `INIT`, `n + 3` for `PRINT_SEQ`, else 4. -/
def eventBound : Instr → Nat
  | .init _ => 37
  | .printSeq n => n + 3
  | _ => 4

/-- A successful instruction transaction and its settle wait, `TX[0x00, op] W(T_SETTLE)` (40_init_sequencer.md R102). -/
def settledTx (op : Byte) : List Event := txEvents 0x00 [op] .ok ++ [.wait .settle]

/-- The events of one successful init transaction of the `PER_INSTRUCTION` sequence, with its waits: the `j`-th byte,
counted from 0 (40_init_sequencer.md R102). -/
def initTxOk (j : Nat) : List Event :=
  settledTx (initSeq.getD j 0) ++ (if j = 0 then [.wait .fsGap] else [])

/-- Mode, line count and sequencer step agree (10_state.md R22). -/
def SameConfiguration (s t : State) : Prop := t.fsm = s.fsm ∧ t.lines = s.lines ∧ t.seq = s.seq

end Sys2Proof.Machine
end

