-- ==== Sys2Proof/Certificates/Slice0/Obligations.lean ====
section
/-! DEFINITION. The statements for the provers. A statement about a transport answer speaks of `statusAt k` or `readAt k`,
the transport's answer to the event after `k` others: it is a draw (00_scope.md R13), so a statement holds for each. -/

open Sys2Proof Sys2Proof.Machine

/-! ## Encoding -/

/-- 30_encoding.md sections 1 to 4: every operand of every row survives encoding and decoding. -/
def Obligations.EncodedInstructionDecodesToItself : Prop :=
  ∀ i : Instr, i.wellFormed = true → decode (encode i) = .instr i

/-- 30_encoding.md section 4: the decoder answers no operand outside its range. -/
def Obligations.DecodedInstructionIsWellFormed : Prop :=
  ∀ (c : CodeWord) (i : Instr), decode c = .instr i → i.wellFormed = true

/-- 30_encoding.md sections 1 to 4: a code word that decodes is the encoding of what it decodes to, but for a `cmd_len`
that the command does not read (R85). -/
def Obligations.CodeWordIsTheEncodingOfItsInstruction : Prop :=
  (∀ (f : ByteFormat) (b : Byte) (i : Instr), decode (.byteWord f b) = .instr i → encode i = .byteWord f b) ∧
  (∀ (w len : Word) (i : Instr), decode (.command w len) = .instr i →
    encode i = .command w (match i with | .printSeq _ => len | _ => 0))

/-- 30_encoding.md R81, its row `cmd16`: a command word is valid exactly when `word & mask = match` for a row. -/
def Obligations.CommandWordDecodesExactlyWhenATableRowMatches : Prop :=
  ∀ w len : Word, (∃ i, i.isCommand = true ∧ decode (.command w len) = .instr i) ↔ validForSomeRow w = true

/-- 30_encoding.md R88, whole: an invalid word is accepted and finished with `INVALID_COMMAND`, with no event and no
other change; every other word runs as a command. -/
def Obligations.InvalidWordFinishesInvalidCommand : Prop :=
  ∀ (s : State) (w len : Word) (rest : List HostAction),
    s.busy = false → s.stage = none → s.host = .command w len :: rest →
    (InvalidWord w →
      step s = .next { s with
        host := rest, busy := false, rspValid := true, rspResult := 5, rspData := 0x00, rspStep := 0 }) ∧
    (¬ InvalidWord w →
      ∃ i, i.isCommand = true ∧ decode (.command w len) = .instr i ∧ step s = exec i { s with host := rest })

/-- 30_encoding.md sections 1, 2 and 4: words written out from the spec's encodings, one or more of each format, each
byte decoded under its format (R71). -/
def Obligations.SampleTableWordsDecode : Prop :=
  decode (.command 0x0100 0) = .instr (.init 2) ∧ decode (.command 0x7400 0) = .instr (.setOnOff true false false) ∧
  decode (.command 0xB100 0) = .instr (.setDataAddressCr 0x00 1) ∧
  decode (.command 0x3000 2) = .instr (.printSeq 2) ∧ decode (.command 0xA080 0) = .rejected .unusedOperandBit ∧
  decode (.byteWord .lcdIr8 0x06) = .instr (.lcdEntryModeSet true false) ∧
  decode (.byteWord .lcdIr8 0x14) = .instr (.lcdCursorDisplayShift false true) ∧
  decode (.byteWord .lcdIr8Ext 0x14) = .instr .extOscFrequency ∧
  decode (.byteWord .controlByte 0x40) = .instr .selectorData ∧
  decode (.byteWord .lcdDr8 0x48) = .instr (.dataByte 0x48) ∧
  decode (.byteWord .status8 0xC5) = .instr (.statusByte true 0x45)

/-- The model's choice, log entry 9: how a word of the opcode table is read when its format is not given. A byte of a
row that fixes every bit is that row; another byte is read by the normal table, and one of no row there is a data byte;
sixteen bits are a command word. -/
def Obligations.WordWithoutFormatReadsFixedRowsFirst : Prop :=
  decodeTableWord 8 0x14 = some .extOscFrequency ∧ decodeTableWord 8 0x40 = some .selectorData ∧
  decodeTableWord 8 0x06 = some (.lcdEntryModeSet true false) ∧ decodeTableWord 8 0x03 = some (.dataByte 0x03) ∧
  decodeTableWord 16 0x0100 = some (.init 2) ∧ decodeTableWord 16 0x7400 = some (.setOnOff true false false) ∧
  decodeTableWord 16 0xB100 = some (.setDataAddressCr 0x00 1) ∧ decodeTableWord 16 0xA080 = none

/-- 30_encoding.md sections 1 and 3: the opcodes the meanings assemble are the encodings of the table's rows. -/
def Obligations.AssembledOpcodesAreTheRowsEncodings : Prop :=
  encode .lcdClear = .byteWord .lcdIr8 clearOpcode ∧
  encode .lcdReturnHome = .byteWord .lcdIr8 homeOpcode ∧
  (∀ inc shift, encode (.lcdEntryModeSet inc shift) = .byteWord .lcdIr8 (entryModeOpcode inc shift)) ∧
  (∀ on cursor blink,
    encode (.lcdDisplayControl on cursor blink) = .byteWord .lcdIr8 (displayCtrlOpcode on cursor blink)) ∧
  (∀ screen right, encode (.lcdCursorDisplayShift screen right) = .byteWord .lcdIr8 (shiftOpcode screen right)) ∧
  (∀ dl n dh ext, encode (.lcdFunctionSet dl n dh ext) = .byteWord .lcdIr8 (functionSetOpcode dl n dh ext)) ∧
  (∀ a : BitVec 6, encode (.lcdSetCgramAddress a) = .byteWord .lcdIr8 (setCgramOpcode a)) ∧
  (∀ a : Byte, encode (.lcdSetDdramAddress (a.extractLsb' 0 7)) = .byteWord .lcdIr8 (setDdramOpcode a)) ∧
  (∀ (busy : Bool) (a : Addr7), encode (.statusByte busy a) = .byteWord .status8 (statusEncode busy a))

/-! ## Reset, constants, steps -/

/-- 10_state.md R26, whole. -/
def Obligations.HardwiredConstants : Prop :=
  devAddr = 0x3E ∧ selIR = 0x00 ∧ selDR = 0x40 ∧ row1Base = 0x40 ∧
  initSeq = [0x38, 0x39, 0x14, 0x79, 0x50, 0x6C, 0x0C, 0x01, 0x06]

/-- 30_encoding.md section 4 (the table of R90) and 10_state.md section 1 (the codes of `st.fsm`, R22), as numbers;
result codes 6 and 7 are never produced and the `fsm` value 3 is never held. -/
def Obligations.ResultAndModeCodes : Prop :=
  Result.ok.code = 0 ∧ Result.ignored.code = 1 ∧ Result.notReady.code = 2 ∧ Result.busError.code = 3 ∧
  Result.readFailure.code = 4 ∧ Result.invalidCommand.code = 5 ∧ (∀ r : Result, r.code ≠ 6 ∧ r.code ≠ 7) ∧
  Fsm.uninit.code = 0 ∧ Fsm.initializing.code = 1 ∧ Fsm.ready.code = 2 ∧ (∀ m : Fsm, m.code ≠ 3)

/-- 70_reset_and_hazards.md R230, whole: the reset values the spec gives, at power-up and at any block reset; the
response fields are not observable; the block is ready for a command and does nothing until one is offered. -/
def Obligations.ResetLeavesTheBlockUninitialized : Prop :=
  (∀ t : State, (t = State.reset ∨ ∃ s, t = blockReset s) →
    t.fsm = .uninit ∧ t.lines = none ∧ t.seq = 0 ∧ t.busy = false ∧ t.rspValid = false ∧
    t.response = none ∧ t.cmdReady = true ∧ (t.stage = none → t.host = [] → step t = .next t))

/-- 70_reset_and_hazards.md sections 1 and 3: a block reset ends what a hung command left, and is taken by an idle block
too. That the reset overtakes waiting commands is the model's choice, log entry 18. -/
def Obligations.BlockResetIsTaken : Prop :=
  (∀ s : State, s.busy = true → .blockReset ∈ s.host →
    ∃ t, step s = .next t ∧ t.fsm = .uninit ∧ t.lines = none ∧ t.seq = 0 ∧ t.busy = false ∧ t.rspValid = false ∧
      t.trace = s.trace ∧ t.host = s.host.erase .blockReset) ∧
  (∀ (s : State) (rest : List HostAction), s.busy = false → s.stage = none → s.host = .blockReset :: rest →
    ∃ t, step s = .next t ∧ t.fsm = .uninit ∧ t.lines = none ∧ t.seq = 0 ∧ t.busy = false ∧ t.rspValid = false ∧
      t.trace = s.trace ∧ t.host = rest)

/-- 45_transmit_primitives.md sections 1 and 3: the step of an idle block is the meaning of the instruction it takes up,
whose word it removes from where it stood. The clause about byte words is the model's choice, log entry 8. -/
def Obligations.StepRunsTheDecodedInstruction : Prop :=
  (∀ (s : State) (w len : Word) (rest : List HostAction) (i : Instr),
    s.busy = false → s.stage = none → s.host = .command w len :: rest → decode (.command w len) = .instr i →
    step s = exec i { s with host := rest }) ∧
  (∀ (s : State) (f : ByteFormat) (b : Byte) (i : Instr),
    s.busy = false → s.stage = some (f, b) → decode (.byteWord f b) = .instr i →
    step s = exec i { s with stage := none })

/-- 45_transmit_primitives.md section 1 (R170): a busy block accepts nothing and an offered command waits unchanged. -/
def Obligations.BusyBlockAcceptsNothing : Prop :=
  ∀ s : State, s.busy = true → .blockReset ∉ s.host → step s = .next s

/-- 45_transmit_primitives.md R180: with `st.busy = 0` no transport event without an accepted command. -/
def Obligations.IdleBlockEmitsNothing : Prop :=
  ∀ s : State, s.busy = false → s.stage = none → s.offered = none → ∃ t, step s = .next t ∧ t.trace = s.trace

/-- 30_encoding.md R69, R72 (the bytes that are no row): the model's refusal of log entry 19, and in every state the only
stop there is. -/
def Obligations.UnlistedByteIsTheOnlyRefusal : Prop :=
  (∀ (s : State) (f : ByteFormat) (b : Byte) (r : Reject),
    s.busy = false → s.stage = some (f, b) → decode (.byteWord f b) = .rejected r →
    step s = .refused (.unlistedByte r)) ∧
  (∀ s : State, (∃ t, step s = .next t) ∨
    ∃ (f : ByteFormat) (b : Byte) (r : Reject), s.busy = false ∧ s.stage = some (f, b) ∧
      decode (.byteWord f b) = .rejected r ∧ step s = .refused (.unlistedByte r))

/-! ## Invariants and whole-machine claims -/

def Obligations.ResetSatisfiesTheInvariant : Prop := State.reset.Inv

/-- 10_state.md section 1, 30_encoding.md section 4, 60_exceptions.md section 3: see `State.Inv`. -/
def Obligations.EveryStepKeepsTheInvariant : Prop :=
  ∀ s t : State, s.Inv → step s = .next t → t.Inv

/-- 30_encoding.md section 2, 20_memory.md sections 1 and 3: whatever the transport does, what a step puts on the bus is
a sequence of whole transactions to `0x3E`, each with one of the two selectors, opcodes after the first only of the
values the spec lists; it breaks off in a transaction only when the block is left busy. -/
def Obligations.EveryStepEmitsWholeTransactions : Prop :=
  ∀ s t : State, s.stage = none → step s = .next t →
    ∃ (events : List Event) (p : BusPhase), t.trace = s.trace ++ events ∧
      BusPhase.idle.afterAll events = some p ∧ (t.busy = false → p = .idle)

/-- 10_state.md R25, whole. -/
def Obligations.ReadyHasALineCountAndNoOtherModeReadsIt : Prop :=
  State.reset.fsm ≠ .ready ∧
  (∀ s t : State, (s.fsm = .ready → s.lines = some 1 ∨ s.lines = some 2) → step s = .next t →
    t.fsm = .ready → t.lines = some 1 ∨ t.lines = some 2) ∧
  (∀ (i : Instr) (s : State) (v : Option Nat), s.fsm ≠ .ready →
    ∃ t u, exec i s = .next t ∧ exec i { s with lines := v } = .next u ∧ { u with lines := t.lines } = t)

/-- 10_state.md section 4: mode, line count and sequencer step are written by `INIT` alone. -/
def Obligations.OnlyInitChangesTheConfiguration : Prop :=
  ∀ (i : Instr) (s t : State), (∀ n, i ≠ .init n) → exec i s = .next t → SameConfiguration s t

/-- No instruction touches the parameter, the host's offers or the byte port (the model's own fields, log entries 4, 6, 8
and 16); only `PRINT_SEQ` takes payload (30_encoding.md section 4). -/
def Obligations.InstructionsKeepTheInputs : Prop :=
  ∀ (i : Instr) (s t : State), exec i s = .next t →
    t.grouping = s.grouping ∧ t.host = s.host ∧ t.stage = s.stage ∧
    ((∀ n, i ≠ .printSeq n) → t.payload = s.payload ∧ t.freeCount = s.freeCount)

/-- 45_transmit_primitives.md section 1 (R171), 60_exceptions.md section 1: a command finishes unless the transport or
the payload fails it. -/
def Obligations.CommandFinishesWhenEverythingAnswers : Prop :=
  ∀ (i : Instr) (s : State), i.isCommand = true → s.completes (eventBound i) →
    (∀ n, i = .printSeq n → n ≤ s.payload.length) →
    ∃ t, exec i s = .next t ∧ t.busy = false ∧ t.rspValid = true ∧ (s.fsm ≠ .initializing → t.fsm ≠ .initializing)

/-- 70_reset_and_hazards.md section 3 (R242): a command that does not finish leaves the block busy with no response, and
only a block reset ends that. That this is a next state is log entry 3. -/
def Obligations.HungCommandStaysBusyWithNoResponse : Prop :=
  ∀ (i : Instr) (s t : State), i.isCommand = true → exec i s = .next t → t.busy = true →
    t.rspValid = false ∧ t.response = none ∧ t.cmdReady = false ∧ (.blockReset ∉ t.host → step t = .next t)

/-- 60_exceptions.md section 1 (the table of R200), 30_encoding.md section 4 (R91), 40_init_sequencer.md section 3 (the
step, R105): what a finished command responds. The step is non-zero for a failed `INIT` and nothing else. -/
def Obligations.FinishedCommandHasALegalResponse : Prop :=
  ∀ (i : Instr) (s t : State), i.isCommand = true → exec i s = .next t → t.busy = false →
    t.rspValid = true ∧ ∃ r : Result, t.rspResult = r.code ∧ canEndWith i r = true ∧
      (r = .ok → okData i t.rspData = true) ∧ (r ≠ .ok → t.rspData = 0) ∧
      (t.rspStep ≠ 0 ↔ r = .busError ∧ ∃ n, i = .init n) ∧
      t.rspStep.toNat ≤ (match s.grouping with | .perInstruction => 9 | .batched => 3)

/-- 20_memory.md section 3 (R50): the trace of a run is the traces of its commands, one after the other. -/
def Obligations.TraceOfARunIsTheTracesOfItsCommands : Prop :=
  ∀ (n : Nat) (s : State), (observe n s).final.trace = s.trace ++ (observe n s).observed.flatMap Observation.events

/-- 45_transmit_primitives.md R181: what a run lists and when it has ended. A step with no accepted command belongs to no
run; every command of a run but the last has its response; the run has ended exactly when its last command has its
response, which the final `st` holds; a run whose last command never finishes has not ended. -/
def Obligations.RunEndsWithTheResponseOfItsLastCommand : Prop :=
  (∀ (n : Nat) (s : State), s.accepted = none → observe n s = ⟨[], s⟩) ∧
  (∀ (n : Nat) (s : State) (c : Word × Word), s.accepted = some c →
    ∃ t, step s = .next t ∧ observe (n + 1) s =
      ⟨⟨c, t.trace.drop s.trace.length, t.response⟩ :: (observe n t).observed, (observe n t).final⟩) ∧
  (∀ (n : Nat) (s : State) (before : List Observation) (last : Observation),
    (observe n s).observed = before ++ [last] →
    (∀ o ∈ before, o.response ≠ none) ∧
    (observe n s).final.response = last.response ∧
    ((observe n s).ended = true ↔ last.response ≠ none) ∧
    (last.response = none → (observe n s).final.busy = true ∧ (observe n s).final.accepted = none) ∧
    (observe n s).observation = (before ++ [last], (observe n s).final.block)) ∧
  (∀ (n : Nat) (s : State), (observe n s).observed = [] → (observe n s).ended = false)

/-- 60_exceptions.md R203: every command but `INIT` and `IS_AVAILABLE`, outside `READY`. -/
def Obligations.NotReadyCommandDoesNothing : Prop :=
  ∀ (i : Instr) (s : State), i.isCommand = true → i ≠ .isAvailable → (∀ n, i ≠ .init n) → s.fsm ≠ .ready →
    exec i s = .next { s with busy := false, rspValid := true, rspResult := 2, rspData := 0x00, rspStep := 0 }

/-! ## `INIT` -/

/-- 40_init_sequencer.md R102, R106: `P_INIT_GROUPING = PER_INSTRUCTION`, every status `ok`. -/
def Obligations.InitSendsTheFixedSequence : Prop :=
  ∀ (n : Nat) (s : State), (n = 1 ∨ n = 2) → s.grouping = .perInstruction → s.completes 37 →
    (∀ j, j < 9 → s.statusAt (4 * j + 4) = .ok) →
    exec (.init n) s = .next (State.responded
      { s.afterEvents
          ([Event.busConfigure] ++ List.flatten
            [settledTx 0x38, [.wait .fsGap], settledTx 0x39, settledTx 0x14, settledTx 0x79, settledTx 0x50,
             settledTx 0x6C, settledTx 0x0C, settledTx 0x01, settledTx 0x06, [.wait .initTail]]) with
        fsm := .ready, lines := some n, seq := 0 } .ok 0x00 0)

/-- 40_init_sequencer.md section 3 (R105): the first failure, at transaction `k + 1`, `P_INIT_GROUPING =
PER_INSTRUCTION`. -/
def Obligations.InitStopsAtTheFirstFailure : Prop :=
  ∀ (n k : Nat) (s : State), (n = 1 ∨ n = 2) → s.grouping = .perInstruction → k < 9 → s.completes (4 * k + 5) →
    (∀ j, j < k → s.statusAt (4 * j + 4) = .ok) → s.statusAt (4 * k + 4) = .busError →
    exec (.init n) s = .next (State.responded
      { s.afterEvents
          ([Event.busConfigure] ++ List.flatten [(List.range k).flatMap initTxOk,
            txEvents 0x00 [initSeq.getD k 0] .busError, [.wait .settle]]) with
        fsm := .uninit, lines := none, seq := 0 } .busError 0x00 (BitVec.ofNat 4 (k + 1)))

/-- 40_init_sequencer.md R103, whole: `P_INIT_GROUPING = BATCHED`, its success and its three failures. -/
def Obligations.BatchedInitSendsTheBatch : Prop :=
  ∀ (n : Nat) (s : State), (n = 1 ∨ n = 2) → s.grouping = .batched →
    (s.completes 19 → s.statusAt 4 = .ok → s.statusAt 8 = .ok → s.statusAt 18 = .ok →
      exec (.init n) s = .next (State.responded
        { s.afterEvents
            ([Event.busConfigure] ++ List.flatten [settledTx 0x38, [.wait .fsGap], settledTx 0x39,
              txEvents 0x00 [0x14, 0x79, 0x50, 0x6C, 0x0C, 0x01, 0x06] .ok, [.wait .initTail]]) with
          fsm := .ready, lines := some n, seq := 0 } .ok 0x00 0)) ∧
    (s.completes 19 → s.statusAt 4 = .ok → s.statusAt 8 = .ok → s.statusAt 18 = .busError →
      exec (.init n) s = .next (State.responded
        { s.afterEvents
            ([Event.busConfigure] ++ List.flatten [settledTx 0x38, [.wait .fsGap], settledTx 0x39,
              txEvents 0x00 [0x14, 0x79, 0x50, 0x6C, 0x0C, 0x01, 0x06] .busError, [.wait .initTail]]) with
          fsm := .uninit, lines := none, seq := 0 } .busError 0x00 3)) ∧
    (s.completes 9 → s.statusAt 4 = .ok → s.statusAt 8 = .busError →
      exec (.init n) s = .next (State.responded
        { s.afterEvents
            ([Event.busConfigure] ++ List.flatten [settledTx 0x38, [.wait .fsGap],
              txEvents 0x00 [0x39] .busError, [.wait .settle]]) with
          fsm := .uninit, lines := none, seq := 0 } .busError 0x00 2)) ∧
    (s.completes 5 → s.statusAt 4 = .busError →
      exec (.init n) s = .next (State.responded
        { s.afterEvents ([Event.busConfigure] ++ List.flatten [txEvents 0x00 [0x38] .busError, [.wait .settle]]) with
          fsm := .uninit, lines := none, seq := 0 } .busError 0x00 1))

/-- 10_state.md section 1 (R22, R23, R24): the three ways an `INIT` leaves the block, from every mode and under every
behaviour of the transport. What a hung `INIT` keeps is read from the order of the pseudocode, log entry 3. -/
def Obligations.InitEndsReadyUninitOrHung : Prop :=
  ∀ (n : Nat) (s t : State), exec (.init n) s = .next t →
    (t.busy = true ∧ t.fsm = .initializing ∧ t.lines = s.lines ∧
      ((t.trace = s.trace ++ [.busConfigure] ∧ t.seq = s.seq) ∨
       (1 ≤ t.seq.toNat ∧ t.seq.toNat ≤ (match s.grouping with | .perInstruction => 9 | .batched => 3)))) ∨
    (t.busy = false ∧ t.fsm = .ready ∧ t.lines = some n ∧ t.seq = 0 ∧ t.rspResult = 0 ∧ t.rspStep = 0) ∨
    (t.busy = false ∧ t.fsm = .uninit ∧ t.lines = none ∧ t.seq = 0 ∧ t.rspResult = 3 ∧
      1 ≤ t.rspStep.toNat ∧ t.rspStep.toNat ≤ (match s.grouping with | .perInstruction => 9 | .batched => 3))

/-- 10_state.md section 1 (R22: `st.seq` is the index of the current init transaction), 40_init_sequencer.md sections 1
and 2, 70_reset_and_hazards.md section 3: an `INIT` whose event never completes, at `BusConfigure` and at event `h`,
counted from 0, of transaction `k + 1`. That the hang is a next state, and what it keeps, is log entry 3. -/
def Obligations.HungInitHoldsTheIndexOfItsTransaction : Prop :=
  (∀ (n : Nat) (s : State), s.drawAt 0 = .never →
    exec (.init n) s = .next
      { s.afterEvents [.busConfigure] with fsm := .initializing, busy := true, rspValid := false }) ∧
  (∀ (n k h : Nat) (s : State), k < (match s.grouping with | .perInstruction => 9 | .batched => 2) → h < 4 →
    s.completes (4 * k + h + 1) → (∀ j, j < k → s.statusAt (4 * j + 4) = .ok) → s.drawAt (4 * k + h + 1) = .never →
    exec (.init n) s = .next
      { s.afterEvents ([Event.busConfigure] ++ List.flatten [(List.range k).flatMap initTxOk,
          List.take (h + 1) [.busBegin 0x3E, .busWrite 0x00, .busWrite (initSeq.getD k 0), .busEnd none]]) with
        fsm := .initializing, seq := BitVec.ofNat 4 (k + 1), busy := true, rspValid := false }) ∧
  (∀ (n h : Nat) (s : State), s.grouping = .batched → h < 10 →
    s.completes (h + 9) → s.statusAt 4 = .ok → s.statusAt 8 = .ok → s.drawAt (h + 9) = .never →
    exec (.init n) s = .next
      { s.afterEvents ([Event.busConfigure] ++ List.flatten [settledTx 0x38, [.wait .fsGap], settledTx 0x39,
          List.take (h + 1) [.busBegin 0x3E, .busWrite 0x00, .busWrite 0x14, .busWrite 0x79, .busWrite 0x50,
            .busWrite 0x6C, .busWrite 0x0C, .busWrite 0x01, .busWrite 0x06, .busEnd none]]) with
        fsm := .initializing, seq := 3, busy := true, rspValid := false })

/-- 40_init_sequencer.md R107, whole: one `BusConfigure`, first, in `INIT`; no answer of the transport to it changes
anything; none in anything else. -/
def Obligations.InitConfiguresTheBusOnce : Prop :=
  (∀ (n : Nat) (s t : State), exec (.init n) s = .next t →
    ∃ events, t.trace = s.trace ++ .busConfigure :: events ∧ .busConfigure ∉ events) ∧
  (∀ (n : Nat) (s : State) (st st' : BusStatus) (r r' : ReadAnswer) (later : List Draw),
    exec (.init n) { s with draws := .answer st r :: later } =
      exec (.init n) { s with draws := .answer st' r' :: later }) ∧
  (∀ (i : Instr) (s t : State), (∀ n, i ≠ .init n) → exec i s = .next t →
    ∃ events, t.trace = s.trace ++ events ∧ .busConfigure ∉ events)

/-- 40_init_sequencer.md R104, whole, in both groupings and under every behaviour of the transport: the gap stands once,
after the settle wait of the first function-set write and before the second, or neither the gap nor the second
function-set write is there; nothing but `INIT` emits the gap. -/
def Obligations.FunctionSetGapStandsBetweenTheTwoWrites : Prop :=
  (∀ (n : Nat) (s t : State), exec (.init n) s = .next t →
    ∃ events, t.trace = s.trace ++ events ∧
      ((.wait .fsGap ∉ events ∧ .busWrite 0x39 ∉ events) ∨
       ∃ (m : Nat) (rest : List Event),
        events = [Event.busConfigure] ++ settledTx 0x38 ++ [Event.wait .fsGap] ++ rest ∧
        .wait .fsGap ∉ rest ∧ 1 ≤ m ∧
        rest.take 3 = List.take m [.busBegin 0x3E, .busWrite 0x00, .busWrite 0x39])) ∧
  (∀ (i : Instr) (s t : State), (∀ n, i ≠ .init n) → exec i s = .next t →
    ∃ events, t.trace = s.trace ++ events ∧ .wait .fsGap ∉ events)

/-- 40_init_sequencer.md section 3 (R108): the line count changes no byte, no wait and no result. -/
def Obligations.LineCountChangesOnlyTheRecordedLines : Prop :=
  ∀ s : State, ∃ t u, exec (.init 1) s = .next t ∧ exec (.init 2) s = .next u ∧ { u with lines := t.lines } = t

/-- 40_init_sequencer.md section 3 (R111): `INIT` runs alike from every mode. -/
def Obligations.InitRunsAlikeFromEveryMode : Prop :=
  ∀ (n : Nat) (m : Fsm) (s : State), exec (.init n) { s with fsm := m } = exec (.init n) s

/-- 70_reset_and_hazards.md section 3 (R242): at least 20 ms, or 13 ms when batched (log entry 13). -/
def Obligations.SuccessfulInitWaitsAtLeast : Prop :=
  ∀ (n : Nat) (s t : State), exec (.init n) s = .next t → t.busy = false → t.rspResult = 0 →
    minWaitMs (t.trace.drop s.trace.length) = (match s.grouping with | .perInstruction => 20 | .batched => 13)

/-! ## Probe, data, instruction and status commands -/

/-- 41_availability.md R121, R122. -/
def Obligations.IsAvailableAnswersTheProbe : Prop :=
  ∀ s : State, s.completes 2 →
    exec .isAvailable s = .next ((s.afterEvents [.busBegin 0x3E, .busEnd (some (s.statusAt 1))]).responded .ok
      (match s.statusAt 1 with | .ok => 0x01 | .busError => 0x00) 0)

/-- 42_data_write.md section of `PRINT_BYTE` (R130), in `READY`. -/
def Obligations.PrintByteSendsItsByte : Prop :=
  ∀ (b : Byte) (s : State), s.fsm = .ready → s.completes 4 →
    exec (.printByte b) s =
      .next ((s.afterEvents (txEvents 0x40 [b] (s.statusAt 3))).responded (statusResult (s.statusAt 3)) 0x00 0)

/-- 42_data_write.md section of `PRINT_SEQ` (R131), in `READY` with the payload there. -/
def Obligations.PrintSeqSendsThePayloadInOneTransaction : Prop :=
  ∀ (n : Nat) (s : State), s.fsm = .ready → n ≤ s.payload.length → s.completes (n + 3) →
    exec (.printSeq n) s = .next (State.responded
      { s.afterEvents (txEvents 0x40 (s.payload.take n) (s.statusAt (n + 2))) with payload := s.payload.drop n }
      (statusResult (s.statusAt (n + 2))) 0x00 0)

/-- 30_encoding.md R89: exactly `n` bytes are taken and sent in order; where the host supplies fewer, the block waits
with no response and nothing in the block ends that. -/
def Obligations.ShortPayloadLeavesTheBlockWaiting : Prop :=
  (∀ (n : Nat) (s : State), s.fsm = .ready → n ≤ s.payload.length → s.completes (n + 3) →
    ∃ t st, exec (.printSeq n) s = .next t ∧ t.payload = s.payload.drop n ∧
      t.trace = s.trace ++ txEvents 0x40 (s.payload.take n) st) ∧
  (∀ (n : Nat) (s : State), s.fsm = .ready → s.payload.length < n →
    ∃ t, exec (.printSeq n) s = .next t ∧ t.busy = true ∧ t.rspValid = false ∧ t.response = none ∧
      (.blockReset ∉ t.host → step t = .next t))

/-- What the spec leaves open beside R89, the model's choice of log entry 4: a `PRINT_SEQ` with too few payload bytes
has sent some first part of its transaction, how much is a free value, and changed nothing of the configuration; with
every event answered it has taken all the bytes there were. -/
def Obligations.StalledPayloadSendsPartOfTheTransaction : Prop :=
  ∀ (n : Nat) (s : State), s.fsm = .ready → s.payload.length < n →
    ∃ t m, exec (.printSeq n) s = .next t ∧ SameConfiguration s t ∧
      t.trace = s.trace ++ List.take m (.busBegin 0x3E :: .busWrite 0x40 :: s.payload.map .busWrite) ∧
      (s.completes (s.payload.length + 2) → t.payload = [])

/-- 42_data_write.md section of `PRINT_SEQ` (R131): one byte by `PRINT_SEQ` is what `PRINT_BYTE` does with it. -/
def Obligations.PrintSeqOfOneByteIsPrintByte : Prop :=
  ∀ (b : Byte) (rest : List Byte) (s : State), s.completes 4 → s.fsm = .ready →
    exec (.printSeq 1) { s with payload := b :: rest } = exec (.printByte b) { s with payload := rest }

/-- 42_data_write.md R133: under every behaviour of the transport. -/
def Obligations.DataWritesEmitNoWait : Prop :=
  ∀ (i : Instr) (s t : State), ((∃ b, i = .printByte b) ∨ (∃ n, i = .printSeq n)) → exec i s = .next t →
    ∃ events, t.trace = s.trace ++ events ∧ ∀ w, .wait w ∉ events

/-- 43_instruction_commands.md R140, whole, for `CLEAR`, `HOME`, `SET_ENTRY_MODE`, `SET_ON_OFF`, `SET_SCREEN_SHIFT`,
`SET_CURSOR_SHIFT`, `SET_DATA_ADDRESS` and `SET_DATA_ADDRESS_CR` (row 1 with two lines): `sentOpcode` is the opcode. -/
def Obligations.InstructionCommandSendsItsOpcode : Prop :=
  ∀ (i : Instr) (op : Nat) (s : State), i.wellFormed = true → sentOpcode i = some op →
    (∀ col, i = .setDataAddressCr col 1 → s.lines = some 2) →
    (s.fsm ≠ .ready → exec i s = .next (s.responded .notReady 0x00 0)) ∧
    (s.fsm = .ready → s.completes 4 →
      exec i s = .next
        ((s.afterEvents (txEvents 0x00 [BitVec.ofNat 8 op] (s.statusAt 3) ++ [.wait .settle])).responded
          (statusResult (s.statusAt 3)) 0x00 0))

/-- 70_reset_and_hazards.md section 3 (R242) for the same commands: an event that never completes is the last
(log entry 3). -/
def Obligations.InstructionCommandHangsAtAnEvent : Prop :=
  ∀ (i : Instr) (op h : Nat) (s : State), i.wellFormed = true → sentOpcode i = some op →
    (∀ col, i = .setDataAddressCr col 1 → s.lines = some 2) → s.fsm = .ready →
    h < 4 → s.completes h → s.drawAt h = .never →
    exec i s = .next
      { s.afterEvents (List.take (h + 1)
          [.busBegin 0x3E, .busWrite 0x00, .busWrite (BitVec.ofNat 8 op), .busEnd none]) with
        busy := true, rspValid := false }

/-- 43_instruction_commands.md R151, with the test as R148 has it: not two lines, which in `READY` is one line (R25). -/
def Obligations.RowOneWithoutTwoLinesIsIgnored : Prop :=
  ∀ (col : Byte) (s : State), s.fsm = .ready → s.lines ≠ some 2 →
    exec (.setDataAddressCr col 1) s = .next
      { s with busy := false, rspValid := true, rspResult := 1, rspData := 0x00, rspStep := 0 }

/-- 43_instruction_commands.md section 4 (R148, the source's property), in every state and under every behaviour of the
transport. -/
def Obligations.RowZeroAddressIsTheDirectAddress : Prop :=
  ∀ (a : Addr7) (s : State), exec (.setDataAddressCr (a.setWidth 8) 0) s = exec (.setDataAddress a) s

/-- 44_status_read.md R161, whole: bit 7 and bits 6 to 0, as numbers. -/
def Obligations.StatusByteSplitsIntoBusyAndAddress : Prop :=
  ∀ v : Byte, ((statusDecode v).1 = true ↔ 128 ≤ v.toNat) ∧ (statusDecode v).2.toNat = v.toNat % 128

/-- 44_status_read.md (R160, R162, R163, R164) and 60_exceptions.md R202: `GET_STATUS`, `GET_IS_BUSY` and `GET_ADDRESS`
make one read each; `statusData` is the response data. -/
def Obligations.StatusCommandsReadOnce : Prop :=
  ∀ (i : Instr) (data : Nat → Nat) (s : State), statusData i = some data → s.fsm = .ready → s.completes 1 →
    (∀ v, s.readAt 0 = .byte v →
      exec i s = .next ((s.afterEvents [.busRequest 0x3E (some (.byte v))]).responded .ok
        (BitVec.ofNat 8 (data v.toNat)) 0)) ∧
    (s.readAt 0 = .failure →
      exec i s = .next
        { s.afterEvents [.busRequest 0x3E (some .failure)] with
          busy := false, rspValid := true, rspResult := 4, rspData := 0x00, rspStep := 0 })

/-! ## The byte rows of the opcode table, run by themselves: the model's choice, log entries 8, 10, 11, 12 -/

/-- 45_transmit_primitives.md section 2 (R173), 30_encoding.md section 1, for the rows clear, return_home,
entry_mode_set, display_control, cursor_display_shift, function_set, set_cgram_address, set_ddram_address and the four
extended literals: `wordOpcode` is the opcode. -/
def Obligations.InstructionByteIsTransmitted : Prop :=
  ∀ (i : Instr) (op : Nat) (s : State), wordOpcode i = some op → s.completes 4 →
    exec i s = .next (s.afterEvents (txEvents 0x00 [BitVec.ofNat 8 op] (s.statusAt 3) ++ [.wait .settle]))

/-- 45_transmit_primitives.md section 2 (R172, R175), 30_encoding.md section 2: the rows selector_instruction,
selector_data and data_byte. -/
def Obligations.SelectorAndDataBytesAreTransmitted : Prop :=
  (∀ s : State, s.completes 3 → exec .selectorInstruction s = .next (s.afterEvents (txEvents 0x00 [] (s.statusAt 2)))) ∧
  (∀ s : State, s.completes 3 → exec .selectorData s = .next (s.afterEvents (txEvents 0x40 [] (s.statusAt 2)))) ∧
  (∀ (d : Byte) (s : State), s.completes 4 →
    exec (.dataByte d) s = .next (s.afterEvents (txEvents 0x40 [d] (s.statusAt 3))))

/-- 30_encoding.md section 2 (R77, R78): the row status_byte, a read transaction answered with that byte. -/
def Obligations.StatusByteIsRead : Prop :=
  ∀ (busy : Bool) (addr : Addr7) (s : State), s.completes 1 →
    exec (.statusByte busy addr) s =
      .next (s.afterEvents [.busRequest 0x3E (some (.byte (BitVec.ofNat 8 (128 * busy.toNat + addr.toNat))))])
end

