-- ==== Sys2Proof/Laws/State.lean ====
section
/-! SUPPORT. One lemma for each field under each named update of `State`. -/

namespace Sys2Proof.Machine.State

@[simp] theorem record_fsm (s : State) (e : Event) : (s.record e).fsm = s.fsm := rfl
@[simp] theorem record_lines (s : State) (e : Event) : (s.record e).lines = s.lines := rfl
@[simp] theorem record_seq (s : State) (e : Event) : (s.record e).seq = s.seq := rfl
@[simp] theorem record_busy (s : State) (e : Event) : (s.record e).busy = s.busy := rfl
@[simp] theorem record_rspValid (s : State) (e : Event) : (s.record e).rspValid = s.rspValid := rfl
@[simp] theorem record_rspResult (s : State) (e : Event) : (s.record e).rspResult = s.rspResult := rfl
@[simp] theorem record_rspData (s : State) (e : Event) : (s.record e).rspData = s.rspData := rfl
@[simp] theorem record_rspStep (s : State) (e : Event) : (s.record e).rspStep = s.rspStep := rfl
@[simp] theorem record_grouping (s : State) (e : Event) : (s.record e).grouping = s.grouping := rfl
@[simp] theorem record_host (s : State) (e : Event) : (s.record e).host = s.host := rfl
@[simp] theorem record_payload (s : State) (e : Event) : (s.record e).payload = s.payload := rfl
@[simp] theorem record_draws (s : State) (e : Event) : (s.record e).draws = s.draws := rfl
@[simp] theorem record_drawCount (s : State) (e : Event) : (s.record e).drawCount = s.drawCount := rfl
@[simp] theorem record_freeCount (s : State) (e : Event) : (s.record e).freeCount = s.freeCount := rfl
@[simp] theorem record_stage (s : State) (e : Event) : (s.record e).stage = s.stage := rfl
@[simp] theorem record_trace (s : State) (e : Event) : (s.record e).trace = s.trace ++ [e] := rfl

@[simp] theorem tookDraw_fsm (s : State) : (s.tookDraw).fsm = s.fsm := rfl
@[simp] theorem tookDraw_lines (s : State) : (s.tookDraw).lines = s.lines := rfl
@[simp] theorem tookDraw_seq (s : State) : (s.tookDraw).seq = s.seq := rfl
@[simp] theorem tookDraw_busy (s : State) : (s.tookDraw).busy = s.busy := rfl
@[simp] theorem tookDraw_rspValid (s : State) : (s.tookDraw).rspValid = s.rspValid := rfl
@[simp] theorem tookDraw_rspResult (s : State) : (s.tookDraw).rspResult = s.rspResult := rfl
@[simp] theorem tookDraw_rspData (s : State) : (s.tookDraw).rspData = s.rspData := rfl
@[simp] theorem tookDraw_rspStep (s : State) : (s.tookDraw).rspStep = s.rspStep := rfl
@[simp] theorem tookDraw_grouping (s : State) : (s.tookDraw).grouping = s.grouping := rfl
@[simp] theorem tookDraw_host (s : State) : (s.tookDraw).host = s.host := rfl
@[simp] theorem tookDraw_payload (s : State) : (s.tookDraw).payload = s.payload := rfl
@[simp] theorem tookDraw_draws (s : State) : (s.tookDraw).draws = s.draws.tail := rfl
@[simp] theorem tookDraw_drawCount (s : State) : (s.tookDraw).drawCount = s.drawCount + 1 := rfl
@[simp] theorem tookDraw_freeCount (s : State) : (s.tookDraw).freeCount = s.freeCount := rfl
@[simp] theorem tookDraw_stage (s : State) : (s.tookDraw).stage = s.stage := rfl
@[simp] theorem tookDraw_trace (s : State) : (s.tookDraw).trace = s.trace := rfl

@[simp] theorem tookFree_fsm (s : State) : (s.tookFree).fsm = s.fsm := rfl
@[simp] theorem tookFree_lines (s : State) : (s.tookFree).lines = s.lines := rfl
@[simp] theorem tookFree_seq (s : State) : (s.tookFree).seq = s.seq := rfl
@[simp] theorem tookFree_busy (s : State) : (s.tookFree).busy = s.busy := rfl
@[simp] theorem tookFree_rspValid (s : State) : (s.tookFree).rspValid = s.rspValid := rfl
@[simp] theorem tookFree_rspResult (s : State) : (s.tookFree).rspResult = s.rspResult := rfl
@[simp] theorem tookFree_rspData (s : State) : (s.tookFree).rspData = s.rspData := rfl
@[simp] theorem tookFree_rspStep (s : State) : (s.tookFree).rspStep = s.rspStep := rfl
@[simp] theorem tookFree_grouping (s : State) : (s.tookFree).grouping = s.grouping := rfl
@[simp] theorem tookFree_host (s : State) : (s.tookFree).host = s.host := rfl
@[simp] theorem tookFree_payload (s : State) : (s.tookFree).payload = s.payload := rfl
@[simp] theorem tookFree_draws (s : State) : (s.tookFree).draws = s.draws := rfl
@[simp] theorem tookFree_drawCount (s : State) : (s.tookFree).drawCount = s.drawCount := rfl
@[simp] theorem tookFree_freeCount (s : State) : (s.tookFree).freeCount = s.freeCount + 1 := rfl
@[simp] theorem tookFree_stage (s : State) : (s.tookFree).stage = s.stage := rfl
@[simp] theorem tookFree_trace (s : State) : (s.tookFree).trace = s.trace := rfl

@[simp] theorem setFsm_fsm (s : State) (v : Fsm) : (s.setFsm v).fsm = v := rfl
@[simp] theorem setFsm_lines (s : State) (v : Fsm) : (s.setFsm v).lines = s.lines := rfl
@[simp] theorem setFsm_seq (s : State) (v : Fsm) : (s.setFsm v).seq = s.seq := rfl
@[simp] theorem setFsm_busy (s : State) (v : Fsm) : (s.setFsm v).busy = s.busy := rfl
@[simp] theorem setFsm_rspValid (s : State) (v : Fsm) : (s.setFsm v).rspValid = s.rspValid := rfl
@[simp] theorem setFsm_rspResult (s : State) (v : Fsm) : (s.setFsm v).rspResult = s.rspResult := rfl
@[simp] theorem setFsm_rspData (s : State) (v : Fsm) : (s.setFsm v).rspData = s.rspData := rfl
@[simp] theorem setFsm_rspStep (s : State) (v : Fsm) : (s.setFsm v).rspStep = s.rspStep := rfl
@[simp] theorem setFsm_grouping (s : State) (v : Fsm) : (s.setFsm v).grouping = s.grouping := rfl
@[simp] theorem setFsm_host (s : State) (v : Fsm) : (s.setFsm v).host = s.host := rfl
@[simp] theorem setFsm_payload (s : State) (v : Fsm) : (s.setFsm v).payload = s.payload := rfl
@[simp] theorem setFsm_draws (s : State) (v : Fsm) : (s.setFsm v).draws = s.draws := rfl
@[simp] theorem setFsm_drawCount (s : State) (v : Fsm) : (s.setFsm v).drawCount = s.drawCount := rfl
@[simp] theorem setFsm_freeCount (s : State) (v : Fsm) : (s.setFsm v).freeCount = s.freeCount := rfl
@[simp] theorem setFsm_stage (s : State) (v : Fsm) : (s.setFsm v).stage = s.stage := rfl
@[simp] theorem setFsm_trace (s : State) (v : Fsm) : (s.setFsm v).trace = s.trace := rfl

@[simp] theorem setLines_fsm (s : State) (v : Option Nat) : (s.setLines v).fsm = s.fsm := rfl
@[simp] theorem setLines_lines (s : State) (v : Option Nat) : (s.setLines v).lines = v := rfl
@[simp] theorem setLines_seq (s : State) (v : Option Nat) : (s.setLines v).seq = s.seq := rfl
@[simp] theorem setLines_busy (s : State) (v : Option Nat) : (s.setLines v).busy = s.busy := rfl
@[simp] theorem setLines_rspValid (s : State) (v : Option Nat) : (s.setLines v).rspValid = s.rspValid := rfl
@[simp] theorem setLines_rspResult (s : State) (v : Option Nat) : (s.setLines v).rspResult = s.rspResult := rfl
@[simp] theorem setLines_rspData (s : State) (v : Option Nat) : (s.setLines v).rspData = s.rspData := rfl
@[simp] theorem setLines_rspStep (s : State) (v : Option Nat) : (s.setLines v).rspStep = s.rspStep := rfl
@[simp] theorem setLines_grouping (s : State) (v : Option Nat) : (s.setLines v).grouping = s.grouping := rfl
@[simp] theorem setLines_host (s : State) (v : Option Nat) : (s.setLines v).host = s.host := rfl
@[simp] theorem setLines_payload (s : State) (v : Option Nat) : (s.setLines v).payload = s.payload := rfl
@[simp] theorem setLines_draws (s : State) (v : Option Nat) : (s.setLines v).draws = s.draws := rfl
@[simp] theorem setLines_drawCount (s : State) (v : Option Nat) : (s.setLines v).drawCount = s.drawCount := rfl
@[simp] theorem setLines_freeCount (s : State) (v : Option Nat) : (s.setLines v).freeCount = s.freeCount := rfl
@[simp] theorem setLines_stage (s : State) (v : Option Nat) : (s.setLines v).stage = s.stage := rfl
@[simp] theorem setLines_trace (s : State) (v : Option Nat) : (s.setLines v).trace = s.trace := rfl

@[simp] theorem setSeq_fsm (s : State) (v : BitVec 4) : (s.setSeq v).fsm = s.fsm := rfl
@[simp] theorem setSeq_lines (s : State) (v : BitVec 4) : (s.setSeq v).lines = s.lines := rfl
@[simp] theorem setSeq_seq (s : State) (v : BitVec 4) : (s.setSeq v).seq = v := rfl
@[simp] theorem setSeq_busy (s : State) (v : BitVec 4) : (s.setSeq v).busy = s.busy := rfl
@[simp] theorem setSeq_rspValid (s : State) (v : BitVec 4) : (s.setSeq v).rspValid = s.rspValid := rfl
@[simp] theorem setSeq_rspResult (s : State) (v : BitVec 4) : (s.setSeq v).rspResult = s.rspResult := rfl
@[simp] theorem setSeq_rspData (s : State) (v : BitVec 4) : (s.setSeq v).rspData = s.rspData := rfl
@[simp] theorem setSeq_rspStep (s : State) (v : BitVec 4) : (s.setSeq v).rspStep = s.rspStep := rfl
@[simp] theorem setSeq_grouping (s : State) (v : BitVec 4) : (s.setSeq v).grouping = s.grouping := rfl
@[simp] theorem setSeq_host (s : State) (v : BitVec 4) : (s.setSeq v).host = s.host := rfl
@[simp] theorem setSeq_payload (s : State) (v : BitVec 4) : (s.setSeq v).payload = s.payload := rfl
@[simp] theorem setSeq_draws (s : State) (v : BitVec 4) : (s.setSeq v).draws = s.draws := rfl
@[simp] theorem setSeq_drawCount (s : State) (v : BitVec 4) : (s.setSeq v).drawCount = s.drawCount := rfl
@[simp] theorem setSeq_freeCount (s : State) (v : BitVec 4) : (s.setSeq v).freeCount = s.freeCount := rfl
@[simp] theorem setSeq_stage (s : State) (v : BitVec 4) : (s.setSeq v).stage = s.stage := rfl
@[simp] theorem setSeq_trace (s : State) (v : BitVec 4) : (s.setSeq v).trace = s.trace := rfl

@[simp] theorem setBusy_fsm (s : State) (v : Bool) : (s.setBusy v).fsm = s.fsm := rfl
@[simp] theorem setBusy_lines (s : State) (v : Bool) : (s.setBusy v).lines = s.lines := rfl
@[simp] theorem setBusy_seq (s : State) (v : Bool) : (s.setBusy v).seq = s.seq := rfl
@[simp] theorem setBusy_busy (s : State) (v : Bool) : (s.setBusy v).busy = v := rfl
@[simp] theorem setBusy_rspValid (s : State) (v : Bool) : (s.setBusy v).rspValid = s.rspValid := rfl
@[simp] theorem setBusy_rspResult (s : State) (v : Bool) : (s.setBusy v).rspResult = s.rspResult := rfl
@[simp] theorem setBusy_rspData (s : State) (v : Bool) : (s.setBusy v).rspData = s.rspData := rfl
@[simp] theorem setBusy_rspStep (s : State) (v : Bool) : (s.setBusy v).rspStep = s.rspStep := rfl
@[simp] theorem setBusy_grouping (s : State) (v : Bool) : (s.setBusy v).grouping = s.grouping := rfl
@[simp] theorem setBusy_host (s : State) (v : Bool) : (s.setBusy v).host = s.host := rfl
@[simp] theorem setBusy_payload (s : State) (v : Bool) : (s.setBusy v).payload = s.payload := rfl
@[simp] theorem setBusy_draws (s : State) (v : Bool) : (s.setBusy v).draws = s.draws := rfl
@[simp] theorem setBusy_drawCount (s : State) (v : Bool) : (s.setBusy v).drawCount = s.drawCount := rfl
@[simp] theorem setBusy_freeCount (s : State) (v : Bool) : (s.setBusy v).freeCount = s.freeCount := rfl
@[simp] theorem setBusy_stage (s : State) (v : Bool) : (s.setBusy v).stage = s.stage := rfl
@[simp] theorem setBusy_trace (s : State) (v : Bool) : (s.setBusy v).trace = s.trace := rfl

@[simp] theorem setRspValid_fsm (s : State) (v : Bool) : (s.setRspValid v).fsm = s.fsm := rfl
@[simp] theorem setRspValid_lines (s : State) (v : Bool) : (s.setRspValid v).lines = s.lines := rfl
@[simp] theorem setRspValid_seq (s : State) (v : Bool) : (s.setRspValid v).seq = s.seq := rfl
@[simp] theorem setRspValid_busy (s : State) (v : Bool) : (s.setRspValid v).busy = s.busy := rfl
@[simp] theorem setRspValid_rspValid (s : State) (v : Bool) : (s.setRspValid v).rspValid = v := rfl
@[simp] theorem setRspValid_rspResult (s : State) (v : Bool) : (s.setRspValid v).rspResult = s.rspResult := rfl
@[simp] theorem setRspValid_rspData (s : State) (v : Bool) : (s.setRspValid v).rspData = s.rspData := rfl
@[simp] theorem setRspValid_rspStep (s : State) (v : Bool) : (s.setRspValid v).rspStep = s.rspStep := rfl
@[simp] theorem setRspValid_grouping (s : State) (v : Bool) : (s.setRspValid v).grouping = s.grouping := rfl
@[simp] theorem setRspValid_host (s : State) (v : Bool) : (s.setRspValid v).host = s.host := rfl
@[simp] theorem setRspValid_payload (s : State) (v : Bool) : (s.setRspValid v).payload = s.payload := rfl
@[simp] theorem setRspValid_draws (s : State) (v : Bool) : (s.setRspValid v).draws = s.draws := rfl
@[simp] theorem setRspValid_drawCount (s : State) (v : Bool) : (s.setRspValid v).drawCount = s.drawCount := rfl
@[simp] theorem setRspValid_freeCount (s : State) (v : Bool) : (s.setRspValid v).freeCount = s.freeCount := rfl
@[simp] theorem setRspValid_stage (s : State) (v : Bool) : (s.setRspValid v).stage = s.stage := rfl
@[simp] theorem setRspValid_trace (s : State) (v : Bool) : (s.setRspValid v).trace = s.trace := rfl

@[simp] theorem setResponse_fsm (s : State) (r : BitVec 3) (d : Byte) (k : BitVec 4) : (s.setResponse r d k).fsm = s.fsm := rfl
@[simp] theorem setResponse_lines (s : State) (r : BitVec 3) (d : Byte) (k : BitVec 4) : (s.setResponse r d k).lines = s.lines := rfl
@[simp] theorem setResponse_seq (s : State) (r : BitVec 3) (d : Byte) (k : BitVec 4) : (s.setResponse r d k).seq = s.seq := rfl
@[simp] theorem setResponse_busy (s : State) (r : BitVec 3) (d : Byte) (k : BitVec 4) : (s.setResponse r d k).busy = s.busy := rfl
@[simp] theorem setResponse_rspValid (s : State) (r : BitVec 3) (d : Byte) (k : BitVec 4) : (s.setResponse r d k).rspValid = s.rspValid := rfl
@[simp] theorem setResponse_rspResult (s : State) (r : BitVec 3) (d : Byte) (k : BitVec 4) : (s.setResponse r d k).rspResult = r := rfl
@[simp] theorem setResponse_rspData (s : State) (r : BitVec 3) (d : Byte) (k : BitVec 4) : (s.setResponse r d k).rspData = d := rfl
@[simp] theorem setResponse_rspStep (s : State) (r : BitVec 3) (d : Byte) (k : BitVec 4) : (s.setResponse r d k).rspStep = k := rfl
@[simp] theorem setResponse_grouping (s : State) (r : BitVec 3) (d : Byte) (k : BitVec 4) : (s.setResponse r d k).grouping = s.grouping := rfl
@[simp] theorem setResponse_host (s : State) (r : BitVec 3) (d : Byte) (k : BitVec 4) : (s.setResponse r d k).host = s.host := rfl
@[simp] theorem setResponse_payload (s : State) (r : BitVec 3) (d : Byte) (k : BitVec 4) : (s.setResponse r d k).payload = s.payload := rfl
@[simp] theorem setResponse_draws (s : State) (r : BitVec 3) (d : Byte) (k : BitVec 4) : (s.setResponse r d k).draws = s.draws := rfl
@[simp] theorem setResponse_drawCount (s : State) (r : BitVec 3) (d : Byte) (k : BitVec 4) : (s.setResponse r d k).drawCount = s.drawCount := rfl
@[simp] theorem setResponse_freeCount (s : State) (r : BitVec 3) (d : Byte) (k : BitVec 4) : (s.setResponse r d k).freeCount = s.freeCount := rfl
@[simp] theorem setResponse_stage (s : State) (r : BitVec 3) (d : Byte) (k : BitVec 4) : (s.setResponse r d k).stage = s.stage := rfl
@[simp] theorem setResponse_trace (s : State) (r : BitVec 3) (d : Byte) (k : BitVec 4) : (s.setResponse r d k).trace = s.trace := rfl

@[simp] theorem setHost_fsm (s : State) (v : List HostAction) : (s.setHost v).fsm = s.fsm := rfl
@[simp] theorem setHost_lines (s : State) (v : List HostAction) : (s.setHost v).lines = s.lines := rfl
@[simp] theorem setHost_seq (s : State) (v : List HostAction) : (s.setHost v).seq = s.seq := rfl
@[simp] theorem setHost_busy (s : State) (v : List HostAction) : (s.setHost v).busy = s.busy := rfl
@[simp] theorem setHost_rspValid (s : State) (v : List HostAction) : (s.setHost v).rspValid = s.rspValid := rfl
@[simp] theorem setHost_rspResult (s : State) (v : List HostAction) : (s.setHost v).rspResult = s.rspResult := rfl
@[simp] theorem setHost_rspData (s : State) (v : List HostAction) : (s.setHost v).rspData = s.rspData := rfl
@[simp] theorem setHost_rspStep (s : State) (v : List HostAction) : (s.setHost v).rspStep = s.rspStep := rfl
@[simp] theorem setHost_grouping (s : State) (v : List HostAction) : (s.setHost v).grouping = s.grouping := rfl
@[simp] theorem setHost_host (s : State) (v : List HostAction) : (s.setHost v).host = v := rfl
@[simp] theorem setHost_payload (s : State) (v : List HostAction) : (s.setHost v).payload = s.payload := rfl
@[simp] theorem setHost_draws (s : State) (v : List HostAction) : (s.setHost v).draws = s.draws := rfl
@[simp] theorem setHost_drawCount (s : State) (v : List HostAction) : (s.setHost v).drawCount = s.drawCount := rfl
@[simp] theorem setHost_freeCount (s : State) (v : List HostAction) : (s.setHost v).freeCount = s.freeCount := rfl
@[simp] theorem setHost_stage (s : State) (v : List HostAction) : (s.setHost v).stage = s.stage := rfl
@[simp] theorem setHost_trace (s : State) (v : List HostAction) : (s.setHost v).trace = s.trace := rfl

@[simp] theorem setPayload_fsm (s : State) (v : List Byte) : (s.setPayload v).fsm = s.fsm := rfl
@[simp] theorem setPayload_lines (s : State) (v : List Byte) : (s.setPayload v).lines = s.lines := rfl
@[simp] theorem setPayload_seq (s : State) (v : List Byte) : (s.setPayload v).seq = s.seq := rfl
@[simp] theorem setPayload_busy (s : State) (v : List Byte) : (s.setPayload v).busy = s.busy := rfl
@[simp] theorem setPayload_rspValid (s : State) (v : List Byte) : (s.setPayload v).rspValid = s.rspValid := rfl
@[simp] theorem setPayload_rspResult (s : State) (v : List Byte) : (s.setPayload v).rspResult = s.rspResult := rfl
@[simp] theorem setPayload_rspData (s : State) (v : List Byte) : (s.setPayload v).rspData = s.rspData := rfl
@[simp] theorem setPayload_rspStep (s : State) (v : List Byte) : (s.setPayload v).rspStep = s.rspStep := rfl
@[simp] theorem setPayload_grouping (s : State) (v : List Byte) : (s.setPayload v).grouping = s.grouping := rfl
@[simp] theorem setPayload_host (s : State) (v : List Byte) : (s.setPayload v).host = s.host := rfl
@[simp] theorem setPayload_payload (s : State) (v : List Byte) : (s.setPayload v).payload = v := rfl
@[simp] theorem setPayload_draws (s : State) (v : List Byte) : (s.setPayload v).draws = s.draws := rfl
@[simp] theorem setPayload_drawCount (s : State) (v : List Byte) : (s.setPayload v).drawCount = s.drawCount := rfl
@[simp] theorem setPayload_freeCount (s : State) (v : List Byte) : (s.setPayload v).freeCount = s.freeCount := rfl
@[simp] theorem setPayload_stage (s : State) (v : List Byte) : (s.setPayload v).stage = s.stage := rfl
@[simp] theorem setPayload_trace (s : State) (v : List Byte) : (s.setPayload v).trace = s.trace := rfl

@[simp] theorem setStage_fsm (s : State) (v : Option (ByteFormat × Byte)) : (s.setStage v).fsm = s.fsm := rfl
@[simp] theorem setStage_lines (s : State) (v : Option (ByteFormat × Byte)) : (s.setStage v).lines = s.lines := rfl
@[simp] theorem setStage_seq (s : State) (v : Option (ByteFormat × Byte)) : (s.setStage v).seq = s.seq := rfl
@[simp] theorem setStage_busy (s : State) (v : Option (ByteFormat × Byte)) : (s.setStage v).busy = s.busy := rfl
@[simp] theorem setStage_rspValid (s : State) (v : Option (ByteFormat × Byte)) : (s.setStage v).rspValid = s.rspValid := rfl
@[simp] theorem setStage_rspResult (s : State) (v : Option (ByteFormat × Byte)) : (s.setStage v).rspResult = s.rspResult := rfl
@[simp] theorem setStage_rspData (s : State) (v : Option (ByteFormat × Byte)) : (s.setStage v).rspData = s.rspData := rfl
@[simp] theorem setStage_rspStep (s : State) (v : Option (ByteFormat × Byte)) : (s.setStage v).rspStep = s.rspStep := rfl
@[simp] theorem setStage_grouping (s : State) (v : Option (ByteFormat × Byte)) : (s.setStage v).grouping = s.grouping := rfl
@[simp] theorem setStage_host (s : State) (v : Option (ByteFormat × Byte)) : (s.setStage v).host = s.host := rfl
@[simp] theorem setStage_payload (s : State) (v : Option (ByteFormat × Byte)) : (s.setStage v).payload = s.payload := rfl
@[simp] theorem setStage_draws (s : State) (v : Option (ByteFormat × Byte)) : (s.setStage v).draws = s.draws := rfl
@[simp] theorem setStage_drawCount (s : State) (v : Option (ByteFormat × Byte)) : (s.setStage v).drawCount = s.drawCount := rfl
@[simp] theorem setStage_freeCount (s : State) (v : Option (ByteFormat × Byte)) : (s.setStage v).freeCount = s.freeCount := rfl
@[simp] theorem setStage_stage (s : State) (v : Option (ByteFormat × Byte)) : (s.setStage v).stage = v := rfl
@[simp] theorem setStage_trace (s : State) (v : Option (ByteFormat × Byte)) : (s.setStage v).trace = s.trace := rfl

end Sys2Proof.Machine.State
end

