-- ==== Sys2Proof/Laws/Ops.lean ====
section
/-! SUPPORT. For each shared operation, once, everything it can do: how many draws it uses, what it adds to the trace,
how it ends. -/

namespace Sys2Proof.Machine

/-- `n` draws used and the entries added to the trace; every other field as before. -/
def State.progress (s : State) (n : Nat) (events : List Event) : State :=
  { s with trace := s.trace ++ events, draws := s.draws.drop n, drawCount := s.drawCount + n }

namespace State

@[simp] theorem progress_fsm (s : State) (n : Nat) (es : List Event) : (s.progress n es).fsm = s.fsm := rfl
@[simp] theorem progress_lines (s : State) (n : Nat) (es : List Event) : (s.progress n es).lines = s.lines := rfl
@[simp] theorem progress_seq (s : State) (n : Nat) (es : List Event) : (s.progress n es).seq = s.seq := rfl
@[simp] theorem progress_busy (s : State) (n : Nat) (es : List Event) : (s.progress n es).busy = s.busy := rfl
@[simp] theorem progress_rspValid (s : State) (n : Nat) (es : List Event) :
    (s.progress n es).rspValid = s.rspValid := rfl
@[simp] theorem progress_rspResult (s : State) (n : Nat) (es : List Event) :
    (s.progress n es).rspResult = s.rspResult := rfl
@[simp] theorem progress_rspData (s : State) (n : Nat) (es : List Event) :
    (s.progress n es).rspData = s.rspData := rfl
@[simp] theorem progress_rspStep (s : State) (n : Nat) (es : List Event) :
    (s.progress n es).rspStep = s.rspStep := rfl
@[simp] theorem progress_grouping (s : State) (n : Nat) (es : List Event) :
    (s.progress n es).grouping = s.grouping := rfl
@[simp] theorem progress_host (s : State) (n : Nat) (es : List Event) : (s.progress n es).host = s.host := rfl
@[simp] theorem progress_payload (s : State) (n : Nat) (es : List Event) :
    (s.progress n es).payload = s.payload := rfl
@[simp] theorem progress_draws (s : State) (n : Nat) (es : List Event) :
    (s.progress n es).draws = s.draws.drop n := rfl
@[simp] theorem progress_drawCount (s : State) (n : Nat) (es : List Event) :
    (s.progress n es).drawCount = s.drawCount + n := rfl
@[simp] theorem progress_freeCount (s : State) (n : Nat) (es : List Event) :
    (s.progress n es).freeCount = s.freeCount := rfl
@[simp] theorem progress_stage (s : State) (n : Nat) (es : List Event) : (s.progress n es).stage = s.stage := rfl
@[simp] theorem progress_trace (s : State) (n : Nat) (es : List Event) :
    (s.progress n es).trace = s.trace ++ es := rfl

theorem progress_zero (s : State) : s.progress 0 [] = s := by simp [progress]

theorem progress_progress (s : State) (n m : Nat) (es fs : List Event) :
    (s.progress n es).progress m fs = s.progress (n + m) (es ++ fs) := by
  simp [progress, List.append_assoc, List.drop_drop, Nat.add_assoc]

theorem tookDraw_record (s : State) (e : Event) : s.tookDraw.record e = s.progress 1 [e] := by
  simp [tookDraw, record, progress]

theorem record_eq_progress (s : State) (e : Event) : s.record e = s.progress 0 [e] := by
  simp [record, progress]

theorem afterEvents_eq_progress (s : State) (es : List Event) :
    s.afterEvents es = s.progress (es.countP Event.isTransport) es := rfl

/-- The draws seen later are the draws that stood further on. -/
@[simp] theorem drawAt_progress (s : State) (n : Nat) (es : List Event) (k : Nat) :
    (s.progress n es).drawAt k = s.drawAt (n + k) := by
  simp [drawAt, progress, List.getElem?_drop, Nat.add_assoc]

@[simp] theorem statusAt_progress (s : State) (n : Nat) (es : List Event) (k : Nat) :
    (s.progress n es).statusAt k = s.statusAt (n + k) := by simp [statusAt]

@[simp] theorem readAt_progress (s : State) (n : Nat) (es : List Event) (k : Nat) :
    (s.progress n es).readAt k = s.readAt (n + k) := by simp [readAt]

/-- Draws depend on no field but `draws` and `drawCount`. -/
theorem drawAt_congr {s t : State} (hd : t.draws = s.draws) (hc : t.drawCount = s.drawCount) (k : Nat) :
    t.drawAt k = s.drawAt k := by simp [drawAt, hd, hc]

end State

/-! ## Sequencing -/

@[simp] theorem bind_done {α β : Type} (v : α) (s : State) (f : α → State → Run β) :
    (Run.done v s).bind f = f v s := rfl

@[simp] theorem bind_hung {α β : Type} (s : State) (f : α → State → Run β) :
    (Run.hung s : Run α).bind f = .hung s := rfl

@[simp] theorem state_done {α : Type} (v : α) (s : State) : (Run.done v s).state = s := rfl

@[simp] theorem state_hung {α : Type} (s : State) : (Run.hung s : Run α).state = s := rfl

/-! ## Transport primitives -/

theorem emit_done {s : State} (h : s.drawAt 0 ≠ .never) (e : Event) : emit e s = .done () (s.progress 1 [e]) := by
  unfold emit
  cases hd : s.drawAt 0 with
  | never => exact absurd hd h
  | answer _ _ => simp [State.tookDraw_record]

theorem emit_hung {s : State} (h : s.drawAt 0 = .never) (e : Event) : emit e s = .hung (s.progress 1 [e]) := by
  simp [emit, h, State.tookDraw_record]

theorem busEnd_done {s : State} (h : s.drawAt 0 ≠ .never) :
    busEnd s = .done (s.statusAt 0) (s.progress 1 [.busEnd (some (s.statusAt 0))]) := by
  unfold busEnd State.statusAt
  cases hd : s.drawAt 0 with
  | never => exact absurd hd h
  | answer _ _ => simp [Draw.status, State.tookDraw_record]

theorem busEnd_hung {s : State} (h : s.drawAt 0 = .never) : busEnd s = .hung (s.progress 1 [.busEnd none]) := by
  simp [busEnd, h, State.tookDraw_record]

theorem busRequest_done {s : State} (h : s.drawAt 0 ≠ .never) (a : Addr7) :
    busRequest a s = .done (s.readAt 0) (s.progress 1 [.busRequest a (some (s.readAt 0))]) := by
  unfold busRequest State.readAt
  cases hd : s.drawAt 0 with
  | never => exact absurd hd h
  | answer _ _ => simp [Draw.read, State.tookDraw_record]

theorem busRequest_hung {s : State} (h : s.drawAt 0 = .never) (a : Addr7) :
    busRequest a s = .hung (s.progress 1 [.busRequest a none]) := by
  simp [busRequest, h, State.tookDraw_record]

theorem busRequestAnswered_done {s : State} (h : s.drawAt 0 ≠ .never) (a : Addr7) (v : Byte) :
    busRequestAnswered a v s = .done () (s.progress 1 [.busRequest a (some (.byte v))]) := by
  unfold busRequestAnswered
  cases hd : s.drawAt 0 with
  | never => exact absurd hd h
  | answer _ _ => simp [State.tookDraw_record]

theorem busRequestAnswered_hung {s : State} (h : s.drawAt 0 = .never) (a : Addr7) (v : Byte) :
    busRequestAnswered a v s = .hung (s.progress 1 [.busRequest a none]) := by
  simp [busRequestAnswered, h, State.tookDraw_record]

theorem waitFor_eq (w : WaitKind) (s : State) : waitFor w s = s.progress 0 [.wait w] :=
  s.record_eq_progress _

/-- Events one after the other: all complete, or the first that does not is the last one emitted. -/
theorem emitAll_cases (es : List Event) (s : State) :
    (s.completes es.length ∧ emitAll es s = .done () (s.progress es.length es)) ∨
    (∃ h, h < es.length ∧ s.completes h ∧ s.drawAt h = .never ∧
      emitAll es s = .hung (s.progress (h + 1) (es.take (h + 1)))) := by
  induction es generalizing s with
  | nil => exact .inl ⟨fun k hk => absurd hk (Nat.not_lt_zero k), by simp [emitAll, s.progress_zero]⟩
  | cons e es ih =>
    by_cases h0 : s.drawAt 0 = .never
    · exact .inr ⟨0, by simp, fun k hk => absurd hk (Nat.not_lt_zero k), h0, by simp [emitAll, emit_hung h0]⟩
    · have extend : ∀ n, (s.progress 1 [e]).completes n → s.completes (n + 1) := by
        intro n hn k hk
        cases k with
        | zero => exact h0
        | succ k => simpa [Nat.add_comm] using hn k (by omega)
      rcases ih (s.progress 1 [e]) with ⟨hc, he⟩ | ⟨h, hl, hc, hd, he⟩
      · exact .inl ⟨extend _ hc, by
          simp [emitAll, emit_done h0, he, State.progress_progress, Nat.add_comm]⟩
      · refine .inr ⟨h + 1, by simpa using hl, extend _ hc, ?_, ?_⟩
        · simpa [Nat.add_comm] using hd
        · simp [emitAll, emit_done h0, he, State.progress_progress, Nat.add_comm 1 (h + 1)]

theorem emitAll_done {es : List Event} {s : State} (h : s.completes es.length) :
    emitAll es s = .done () (s.progress es.length es) := by
  rcases emitAll_cases es s with ⟨_, he⟩ | ⟨k, hk, _, hd, _⟩
  · exact he
  · exact absurd hd (h k hk)

/-! ## Transmit primitives -/

/-- The events a write transaction emits when its `BusEnd` never completes. -/
def txUnended (sel : Byte) (p : List Byte) : List Event :=
  [.busBegin devAddr, .busWrite sel] ++ p.map .busWrite ++ [.busEnd none]

@[simp] theorem txUnended_length (sel : Byte) (p : List Byte) : (txUnended sel p).length = p.length + 3 := by
  simp [txUnended]

@[simp] theorem txEvents_countP (sel : Byte) (p : List Byte) (st : BusStatus) :
    (txEvents sel p st).countP Event.isTransport = p.length + 3 := by
  simp [txEvents, Event.isTransport, List.countP_append, List.countP_cons, List.countP_map, Function.comp_def]

/-- A write transaction: the whole of it, or its events up to and with the first that never completes. -/
theorem tx_cases (sel : Byte) (p : List Byte) (s : State) :
    (s.completes (p.length + 3) ∧
      tx sel p s = .done (s.statusAt (p.length + 2))
        (s.progress (p.length + 3) (txEvents sel p (s.statusAt (p.length + 2))))) ∨
    (∃ h, h < p.length + 3 ∧ s.completes h ∧ s.drawAt h = .never ∧
      tx sel p s = .hung (s.progress (h + 1) ((txUnended sel p).take (h + 1)))) := by
  have hlen : (Event.busBegin devAddr :: Event.busWrite sel :: p.map Event.busWrite).length = p.length + 2 := by simp
  rcases emitAll_cases (.busBegin devAddr :: .busWrite sel :: p.map .busWrite) s with ⟨hc, he⟩ | ⟨h, hl, hc, hd, he⟩
  · rw [hlen] at hc he
    by_cases hn : s.drawAt (p.length + 2) = .never
    · refine .inr ⟨p.length + 2, by omega, hc, hn, ?_⟩
      have : (s.progress (p.length + 2) (.busBegin devAddr :: .busWrite sel :: p.map .busWrite)).drawAt 0 = .never := by
        simpa using hn
      rw [List.take_of_length_le (by simp)]
      simp only [tx, he, bind_done, busEnd_hung this, State.progress_progress, txUnended]
      simp
    · refine .inl ⟨?_, ?_⟩
      · intro k hk
        rcases Nat.lt_succ_iff_lt_or_eq.mp hk with hk | hk
        · exact hc k hk
        · rw [hk]; exact hn
      · have : (s.progress (p.length + 2) (.busBegin devAddr :: .busWrite sel :: p.map .busWrite)).drawAt 0 ≠ .never := by
          simpa using hn
        simp only [tx, he, bind_done, busEnd_done this, State.progress_progress, txEvents]
        simp
  · rw [hlen] at hl
    refine .inr ⟨h, by omega, hc, hd, ?_⟩
    have : (txUnended sel p).take (h + 1) =
        (Event.busBegin devAddr :: Event.busWrite sel :: p.map Event.busWrite).take (h + 1) := by
      simp only [txUnended, List.cons_append, List.nil_append]
      rw [← List.cons_append, ← List.cons_append, List.take_append_of_le_length (by simp; omega)]
    simp [tx, he, this]

theorem tx_done {sel : Byte} {p : List Byte} {s : State} (h : s.completes (p.length + 3)) :
    tx sel p s = .done (s.statusAt (p.length + 2))
      (s.progress (p.length + 3) (txEvents sel p (s.statusAt (p.length + 2)))) := by
  rcases tx_cases sel p s with ⟨_, he⟩ | ⟨k, hk, _, hd, _⟩
  · exact he
  · exact absurd hd (h k hk)

/-- An instruction write: transaction and settle wait, or hung in the transaction. -/
theorem writeInstruction_cases (op : Byte) (s : State) :
    (s.completes 4 ∧
      writeInstruction op s = .done (s.statusAt 3)
        (s.progress 4 (txEvents selIR [op] (s.statusAt 3) ++ [.wait .settle]))) ∨
    (∃ h, h < 4 ∧ s.completes h ∧ s.drawAt h = .never ∧
      writeInstruction op s = .hung (s.progress (h + 1) ((txUnended selIR [op]).take (h + 1)))) := by
  rcases tx_cases selIR [op] s with ⟨hc, he⟩ | ⟨h, hl, hc, hd, he⟩
  · refine .inl ⟨hc, ?_⟩
    simp only [List.length_singleton] at he
    simp [writeInstruction, he, waitFor_eq, State.progress_progress]
  · exact .inr ⟨h, hl, hc, hd, by simp [writeInstruction, he]⟩

theorem writeInstruction_done {op : Byte} {s : State} (h : s.completes 4) :
    writeInstruction op s = .done (s.statusAt 3)
      (s.progress 4 (txEvents selIR [op] (s.statusAt 3) ++ [.wait .settle])) := by
  rcases writeInstruction_cases op s with ⟨_, he⟩ | ⟨k, hk, _, hd, _⟩
  · exact he
  · exact absurd hd (h k hk)

/-- The probe: both events, or hung at one of them. -/
theorem probe_cases (s : State) :
    (s.completes 2 ∧
      probe s = .done (s.statusAt 1) (s.progress 2 [.busBegin devAddr, .busEnd (some (s.statusAt 1))])) ∨
    (s.drawAt 0 = .never ∧ probe s = .hung (s.progress 1 [.busBegin devAddr])) ∨
    (s.drawAt 0 ≠ .never ∧ s.drawAt 1 = .never ∧
      probe s = .hung (s.progress 2 [.busBegin devAddr, .busEnd none])) := by
  by_cases h0 : s.drawAt 0 = .never
  · exact .inr (.inl ⟨h0, by simp [probe, emit_hung h0]⟩)
  · by_cases h1 : s.drawAt 1 = .never
    · have : (s.progress 1 [.busBegin devAddr]).drawAt 0 = .never := by simpa using h1
      exact .inr (.inr ⟨h0, h1, by simp [probe, emit_done h0, busEnd_hung this, State.progress_progress]⟩)
    · have : (s.progress 1 [.busBegin devAddr]).drawAt 0 ≠ .never := by simpa using h1
      refine .inl ⟨?_, by simp [probe, emit_done h0, busEnd_done this, State.progress_progress]⟩
      intro k hk
      match k, hk with
      | 0, _ => exact h0
      | 1, _ => exact h1

/-! ## Acceptance, response, gate -/

theorem accept_eq (s : State) : accept s = { s with busy := true, rspValid := false } := rfl

@[simp] theorem drawAt_accept (s : State) (k : Nat) : (accept s).drawAt k = s.drawAt k := rfl

@[simp] theorem statusAt_accept (s : State) (k : Nat) : (accept s).statusAt k = s.statusAt k := rfl

@[simp] theorem readAt_accept (s : State) (k : Nat) : (accept s).readAt k = s.readAt k := rfl

@[simp] theorem accept_fsm (s : State) : (accept s).fsm = s.fsm := rfl

@[simp] theorem accept_lines (s : State) : (accept s).lines = s.lines := rfl

@[simp] theorem accept_grouping (s : State) : (accept s).grouping = s.grouping := rfl

@[simp] theorem accept_payload (s : State) : (accept s).payload = s.payload := rfl

theorem finish_eq (r : Result) (d : Byte) (k : BitVec 4) (s : State) : finish r d k s = .done () (s.responded r d k) :=
  rfl

/-- What was accepted and then answered differs from what was there in the response and in `busy` alone. -/
theorem responded_accept (s : State) (n : Nat) (es : List Event) (r : Result) (d : Byte) (k : BitVec 4) :
    ((accept s).progress n es).responded r d k = (s.progress n es).responded r d k := rfl

theorem gated_ready {body : State → Run Unit} {s : State} (h : s.fsm = .ready) : gated body s = body s := by
  simp [gated, h]

theorem gated_not_ready {body : State → Run Unit} {s : State} (h : s.fsm ≠ .ready) :
    gated body s = .done () (s.responded .notReady 0x00 0) := by
  simp [gated, h, raise, finish_eq]

theorem reportStatus_eq (st : BusStatus) (s : State) :
    reportStatus st s = .done () (s.responded (statusResult st) 0x00 0) := by
  cases st <;> rfl

end Sys2Proof.Machine
end

