-- ==== Sys2Proof/Laws/Commands.lean ====
section
/-! SUPPORT. Everything the bodies of the commands can do, once each: how many draws they use, what they add to the
trace, which fields they leave changed. -/

namespace Sys2Proof.Machine

/-! ## One instruction byte -/

theorem instr_cases (op : Byte) (s : State) :
    (s.fsm ≠ .ready ∧ instr op s = .done () (s.responded .notReady 0x00 0)) ∨
    (s.fsm = .ready ∧ s.completes 4 ∧
      instr op s = .done () ((s.progress 4 (txEvents selIR [op] (s.statusAt 3) ++ [.wait .settle])).responded
        (statusResult (s.statusAt 3)) 0x00 0)) ∨
    (s.fsm = .ready ∧ ∃ h, h < 4 ∧ s.completes h ∧ s.drawAt h = .never ∧
      instr op s = .hung (s.progress (h + 1) ((txUnended selIR [op]).take (h + 1)))) := by
  by_cases hr : s.fsm = .ready
  · refine .inr ?_
    rcases writeInstruction_cases op s with ⟨hc, he⟩ | ⟨h, hl, hc, hd, he⟩
    · exact .inl ⟨hr, hc, by simp [instr, gated_ready hr, he, reportStatus_eq]⟩
    · exact .inr ⟨hr, h, hl, hc, hd, by simp [instr, gated_ready hr, he]⟩
  · exact .inl ⟨hr, gated_not_ready hr⟩

/-! ## One status read -/

theorem statusRead_cases (data : Byte → Byte) (s : State) :
    (s.fsm ≠ .ready ∧ statusRead data s = .done () (s.responded .notReady 0x00 0)) ∨
    (s.fsm = .ready ∧ s.drawAt 0 ≠ .never ∧ ∃ v, s.readAt 0 = .byte v ∧
      statusRead data s = .done ()
        ((s.progress 1 [.busRequest devAddr (some (.byte v))]).responded .ok (data v) 0)) ∨
    (s.fsm = .ready ∧ s.drawAt 0 ≠ .never ∧ s.readAt 0 = .failure ∧
      statusRead data s = .done ()
        ((s.progress 1 [.busRequest devAddr (some .failure)]).responded .readFailure 0x00 0)) ∨
    (s.fsm = .ready ∧ s.drawAt 0 = .never ∧
      statusRead data s = .hung (s.progress 1 [.busRequest devAddr none])) := by
  by_cases hr : s.fsm = .ready
  · by_cases h0 : s.drawAt 0 = .never
    · exact .inr (.inr (.inr ⟨hr, h0, by simp [statusRead, gated_ready hr, busRequest_hung h0]⟩))
    · cases hv : s.readAt 0 with
      | byte v =>
        exact .inr (.inl ⟨hr, h0, v, rfl, by
          simp [statusRead, gated_ready hr, busRequest_done h0, hv, finish_eq]⟩)
      | failure =>
        exact .inr (.inr (.inl ⟨hr, h0, rfl, by
          simp [statusRead, gated_ready hr, busRequest_done h0, hv, finish_eq]⟩))
  · exact .inl ⟨hr, gated_not_ready hr⟩

/-! ## The data transaction of `PRINT_SEQ` -/

/-- The events of a data transaction before its `BusEnd`. -/
def dataOpening (d : List Byte) : List Event := .busBegin devAddr :: .busWrite selDR :: d.map .busWrite

@[simp] theorem dataOpening_length (d : List Byte) : (dataOpening d).length = d.length + 2 := by simp [dataOpening]

/-- `PRINT_SEQ`'s transaction ends, or hangs in a transaction that would have been whole, or hangs because the payload
stops short; it leaves every field but payload, draws, trace and the free-value index as it was. -/
theorem sendPayload_cases (n : Nat) (s : State) :
    (n ≤ s.payload.length ∧ s.completes (n + 3) ∧
      sendPayload n s = .done (s.statusAt (n + 2))
        ((s.progress (n + 3) (txEvents selDR (s.payload.take n) (s.statusAt (n + 2)))).setPayload
          (s.payload.drop n))) ∨
    (n ≤ s.payload.length ∧ ∃ h p, h < n + 3 ∧ s.completes h ∧ s.drawAt h = .never ∧
      sendPayload n s = .hung (((s.progress (h + 1)
        ((txUnended selDR (s.payload.take n)).take (h + 1))).setPayload p).tookFree)) ∨
    (s.payload.length < n ∧ ∃ m k p, k ≤ s.payload.length + 2 ∧
      (s.completes (s.payload.length + 2) → p = []) ∧
      sendPayload n s = .hung (((s.progress k ((dataOpening s.payload).take m)).setPayload p).tookFree)) := by
  by_cases hn : n ≤ s.payload.length
  · have hlen : (s.payload.take n).length = n := by simp [hn]
    rcases tx_cases selDR (s.payload.take n) s with ⟨hc, he⟩ | ⟨h, hl, hc, hd, he⟩
    · rw [hlen] at hc he
      exact .inl ⟨hn, hc, by simp [sendPayload, hn, writeData, he]⟩
    · rw [hlen] at hl
      have key : sendPayload n s = .hung (payloadHung s (s.progress (h + 1)
          ((txUnended selDR (s.payload.take n)).take (h + 1))) (s.payload.take n)) := by
        simp [sendPayload, hn, writeData, he]
      exact .inr (.inl ⟨hn, h, _, hl, hc, hd, key⟩)
  · have htake : s.payload.take n = s.payload := List.take_of_length_le (by omega)
    refine .inr (.inr ⟨by omega, ?_⟩)
    rcases emitAll_cases ((dataOpening s.payload).take (Config.stallEvents s.freeCount)) s with
      ⟨hc, he⟩ | ⟨h, hl, hc, hd, he⟩
    · refine ⟨Config.stallEvents s.freeCount, ((dataOpening s.payload).take (Config.stallEvents s.freeCount)).length,
        [], ?_, fun _ => rfl, ?_⟩
      · simp
      · simp only [sendPayload, hn, if_false, htake]
        rw [show Event.busBegin devAddr :: Event.busWrite selDR :: s.payload.map Event.busWrite =
          dataOpening s.payload from rfl, he]
    · have hl2 : h < s.payload.length + 2 := by
        have := List.length_take_le (Config.stallEvents s.freeCount) (dataOpening s.payload)
        have := List.length_take_le' (Config.stallEvents s.freeCount) (dataOpening s.payload)
        simp only [dataOpening_length] at this
        omega
      have key : sendPayload n s = .hung (payloadHung s (s.progress (h + 1)
          ((dataOpening s.payload).take (min (h + 1) (Config.stallEvents s.freeCount)))) s.payload) := by
        simp only [sendPayload, hn, if_false, htake]
        rw [show Event.busBegin devAddr :: Event.busWrite selDR :: s.payload.map Event.busWrite =
          dataOpening s.payload from rfl, he, List.take_take]
      refine ⟨min (h + 1) (Config.stallEvents s.freeCount), h + 1, _, ?_, ?_, key⟩
      · omega
      · exact fun hall => absurd hd (hall h hl2)

/-! ## The initialization sequence -/

/-- What the successful transactions of the bytes `ops`, numbered from `k`, add to the trace. -/
def initOkEvents : List Byte → BitVec 4 → List Event
  | [], _ => []
  | op :: ops, k => settledTx op ++ (if k = 1 then [.wait .fsGap] else []) ++ initOkEvents ops (k + 1)

/-- The block after a failed `INIT` (40_init_sequencer.md R105), but for the response. -/
def State.initUndone (s : State) : State := { s with fsm := .uninit, lines := none, seq := 0 }

/-- The block after a successful `INIT` (40_init_sequencer.md R106), but for the response. -/
def State.initReady (s : State) (lineCount : Nat) : State := { s with fsm := .ready, lines := some lineCount, seq := 0 }

theorem initFailed_eq (k : BitVec 4) (s : State) :
    initFailed k s = .done () (s.initUndone.responded .busError 0x00 k) := rfl

theorem initDone_eq (lineCount : Nat) (s : State) :
    initDone lineCount s = .done () ((s.initReady lineCount).responded .ok 0x00 0) := rfl

theorem step_index (k : BitVec 4) (j : Nat) : k + 1 + BitVec.ofNat 4 j = k + BitVec.ofNat 4 (j + 1) := by
  apply BitVec.eq_of_toNat_eq
  have h1 : (1 : BitVec 4).toNat = 1 := rfl
  simp only [BitVec.toNat_add, BitVec.toNat_ofNat, h1]
  omega

/-- The sequence of the bytes `ops`, numbered from `k`: all of it, or up to its first failed transaction, or up to its
first event that never completes. -/
theorem initSteps_cases (lineCount : Nat) (ops : List Byte) (k : BitVec 4) (s : State) :
    (s.completes (4 * ops.length) ∧ (∀ j, j < ops.length → s.statusAt (4 * j + 3) = .ok) ∧
      initSteps lineCount ops k s = .done ()
        (((s.progress (4 * ops.length) (initOkEvents ops k ++ [.wait .initTail])).initReady lineCount).responded
          .ok 0x00 0)) ∨
    (∃ j op, ops[j]? = some op ∧ s.completes (4 * j + 4) ∧ (∀ i, i < j → s.statusAt (4 * i + 3) = .ok) ∧
      s.statusAt (4 * j + 3) = .busError ∧
      initSteps lineCount ops k s = .done ()
        (((s.progress (4 * j + 4)
          (initOkEvents (ops.take j) k ++ txEvents selIR [op] .busError ++ [.wait .settle])).initUndone).responded
          .busError 0x00 (k + BitVec.ofNat 4 j))) ∨
    (∃ j op h, ops[j]? = some op ∧ h < 4 ∧ s.completes (4 * j + h) ∧ (∀ i, i < j → s.statusAt (4 * i + 3) = .ok) ∧
      s.drawAt (4 * j + h) = .never ∧
      initSteps lineCount ops k s = .hung
        ((s.progress (4 * j + h + 1)
          (initOkEvents (ops.take j) k ++ (txUnended selIR [op]).take (h + 1))).setSeq (k + BitVec.ofNat 4 j))) := by
  induction ops generalizing k s with
  | nil =>
    refine .inl ⟨fun _ h => absurd h (Nat.not_lt_zero _), fun _ h => absurd h (Nat.not_lt_zero _), ?_⟩
    simp [initSteps, waitFor_eq, initDone_eq, initOkEvents]
  | cons op ops ih =>
    rcases writeInstruction_cases op (s.setSeq k) with ⟨hc, he⟩ | ⟨h, hl, hc, hd, he⟩
    · have hc' : s.completes 4 := hc
      cases hst : s.statusAt 3 with
      | busError =>
        refine .inr (.inl ⟨0, op, rfl, by simpa using hc', fun i hi => absurd hi (Nat.not_lt_zero i), by simpa using hst, ?_⟩)
        have : (s.setSeq k).statusAt 3 = .busError := hst
        simp only [initSteps, he, this, bind_done, initFailed_eq]
        simp [initOkEvents]
        rfl
      | ok =>
        have hst' : (s.setSeq k).statusAt 3 = .ok := hst
        let s1 : State := if k = 1 then waitFor .fsGap ((s.setSeq k).progress 4 (settledTx op))
          else (s.setSeq k).progress 4 (settledTx op)
        have hs1 : s1 = (s.setSeq k).progress 4 (settledTx op ++ (if k = 1 then [.wait .fsGap] else [])) := by
          by_cases hk : k = 1
          · simp only [s1, hk, if_true, waitFor_eq, State.progress_progress, Nat.add_zero]
          · simp only [s1, hk, if_false, List.append_nil]
        have hrun : initSteps lineCount (op :: ops) k s = initSteps lineCount ops (k + 1) s1 := by
          simp only [initSteps, he, hst', bind_done]
          rfl
        have hdraw : ∀ j, s1.drawAt j = s.drawAt (4 + j) := fun j => by
          rw [hs1]; exact State.drawAt_progress _ _ _ _
        have hstat : ∀ j, s1.statusAt j = s.statusAt (4 + j) := fun j => by simp [State.statusAt, hdraw]
        have extend : ∀ m, s1.completes m → s.completes (m + 4) := by
          intro m hm j hj
          by_cases h4 : j < 4
          · exact hc' j h4
          · have := hm (j - 4) (by omega)
            rwa [hdraw, show 4 + (j - 4) = j by omega] at this
        rw [hrun]
        rcases ih (k + 1) s1 with ⟨h1, h2, h3⟩ | ⟨j, o, h1, h2, h3, h4, h5⟩ |
          ⟨j, o, h, h1, h2, h3, h6, h4, h5⟩
        · refine .inl ⟨?_, ?_, ?_⟩
          · have := extend _ h1
            simpa [Nat.mul_add] using this
          · intro j hj
            cases j with
            | zero => simpa using hst
            | succ j =>
              have := h2 j (by simpa using hj)
              rw [hstat] at this
              rw [show 4 * (j + 1) + 3 = 4 + (4 * j + 3) by omega]
              exact this
          · rw [h3, hs1]
            simp only [State.progress_progress, initOkEvents, List.length_cons, List.append_assoc,
              show 4 * (ops.length + 1) = 4 + 4 * ops.length by omega]
            rfl
        · refine .inr (.inl ⟨j + 1, o, by simpa using h1, ?_, ?_, ?_, ?_⟩)
          · have := extend _ h2
            rwa [show 4 * (j + 1) + 4 = 4 * j + 4 + 4 by omega]
          · intro i hi
            cases i with
            | zero => simpa using hst
            | succ i =>
              have := h3 i (by omega)
              rw [hstat] at this
              rw [show 4 * (i + 1) + 3 = 4 + (4 * i + 3) by omega]
              exact this
          · rw [hstat] at h4
            rw [show 4 * (j + 1) + 3 = 4 + (4 * j + 3) by omega]
            exact h4
          · rw [h5, hs1]
            simp only [State.progress_progress, initOkEvents, List.take_succ_cons, List.append_assoc,
              show 4 * (j + 1) + 4 = 4 + (4 * j + 4) by omega,
              step_index k j]
            rfl
        · refine .inr (.inr ⟨j + 1, o, h, by simpa using h1, h2, ?_, ?_, ?_, ?_⟩)
          · have := extend _ h3
            rwa [show 4 * (j + 1) + h = 4 * j + h + 4 by omega]
          · intro i hi
            cases i with
            | zero => simpa using hst
            | succ i =>
              have := h6 i (by omega)
              rw [hstat] at this
              rw [show 4 * (i + 1) + 3 = 4 + (4 * i + 3) by omega]
              exact this
          · rw [hdraw] at h4
            rw [show 4 * (j + 1) + h = 4 + (4 * j + h) by omega]
            exact h4
          · rw [h5, hs1]
            simp only [State.progress_progress, initOkEvents, List.take_succ_cons, List.append_assoc,
              show 4 * (j + 1) + h + 1 = 4 + (4 * j + h + 1) by omega,
              step_index k j]
            rfl
    · have hc' : s.completes h := hc
      have hd' : s.drawAt h = .never := hd
      refine .inr (.inr ⟨0, op, h, rfl, hl, by simpa using hc', fun i hi => absurd hi (Nat.not_lt_zero i),
        by simpa using hd', ?_⟩)
      simp only [initSteps, he, bind_hung]
      simp [initOkEvents]
      rfl

end Sys2Proof.Machine
end

