-- ==== Sys2Proof/Laws/Exec.lean ====
section
/-! SUPPORT. Everything the meanings can answer: one lemma for each family, in terms of the state before the command. -/

namespace Sys2Proof.Machine

/-- The block as a transport event that never completes leaves it: busy, no response. -/
def State.hungUp (s : State) : State := { s with busy := true, rspValid := false }

theorem State.setSeq_progress (s : State) (k : BitVec 4) (n : Nat) (es : List Event) :
    (s.setSeq k).progress n es = (s.progress n es).setSeq k := rfl

/-- A command of one instruction byte answers `NOT_READY`, or its transaction's status, or hangs. -/
theorem runCommand_instr (op : Byte) (s t : State) (h : runCommand (instr op) s = .next t) :
    (s.fsm ≠ .ready ∧ t = s.responded .notReady 0x00 0) ∨
    (s.fsm = .ready ∧ s.completes 4 ∧
      t = (s.progress 4 (txEvents selIR [op] (s.statusAt 3) ++ [.wait .settle])).responded
        (statusResult (s.statusAt 3)) 0x00 0) ∨
    (s.fsm = .ready ∧ ∃ h, h < 4 ∧ s.completes h ∧ s.drawAt h = .never ∧
      t = (s.progress (h + 1) ((txUnended selIR [op]).take (h + 1))).hungUp) := by
  simp only [runCommand, Host.Outcome.next.injEq] at h
  subst h
  rcases instr_cases op (accept s) with ⟨hr, he⟩ | ⟨hr, hc, he⟩ | ⟨hr, h, hl, hc, hd, he⟩
  · exact .inl ⟨hr, by rw [he]; rfl⟩
  · exact .inr (.inl ⟨hr, hc, by rw [he]; rfl⟩)
  · exact .inr (.inr ⟨hr, h, hl, hc, hd, by rw [he]; rfl⟩)

/-- `SET_DATA_ADDRESS_CR` answers `NOT_READY`, or `IGNORED`, or does what a command of one instruction byte does. -/
theorem execSetDataAddressCr_cases (col : Byte) (row : Nat) (s : State) :
    (s.fsm ≠ .ready ∧ execSetDataAddressCr col row s = .next (s.responded .notReady 0x00 0)) ∨
    (s.fsm = .ready ∧ (row = 1 ∧ s.lines ≠ some 2) ∧
      execSetDataAddressCr col row s = .next (s.responded .ignored 0x00 0)) ∨
    (s.fsm = .ready ∧ ¬ (row = 1 ∧ s.lines ≠ some 2) ∧
      execSetDataAddressCr col row s = runCommand (instr (setDdramOpcode (rowColumnAddress col row))) s) := by
  by_cases hr : s.fsm = .ready
  · have hr' : (accept s).fsm = .ready := hr
    by_cases hi : row = 1 ∧ s.lines ≠ some 2
    · have hi' : row = 1 ∧ (accept s).lines ≠ some 2 := hi
      exact .inr (.inl ⟨hr, hi, by
        simp only [execSetDataAddressCr, runCommand, gated_ready hr', if_pos hi', finish_eq]; rfl⟩)
    · have hi' : ¬ (row = 1 ∧ (accept s).lines ≠ some 2) := hi
      exact .inr (.inr ⟨hr, hi, by simp only [execSetDataAddressCr, runCommand, gated_ready hr', if_neg hi']⟩)
  · have hr' : (accept s).fsm ≠ .ready := hr
    exact .inl ⟨hr, by simp only [execSetDataAddressCr, runCommand, gated_not_ready hr']; rfl⟩

/-- A status command answers `NOT_READY`, the byte's data, `READ_FAILURE`, or hangs. -/
theorem runCommand_statusRead (data : Byte → Byte) (s t : State) (h : runCommand (statusRead data) s = .next t) :
    (s.fsm ≠ .ready ∧ t = s.responded .notReady 0x00 0) ∨
    (s.fsm = .ready ∧ s.drawAt 0 ≠ .never ∧ ∃ v, s.readAt 0 = .byte v ∧
      t = (s.progress 1 [.busRequest devAddr (some (.byte v))]).responded .ok (data v) 0) ∨
    (s.fsm = .ready ∧ s.drawAt 0 ≠ .never ∧ s.readAt 0 = .failure ∧
      t = (s.progress 1 [.busRequest devAddr (some .failure)]).responded .readFailure 0x00 0) ∨
    (s.fsm = .ready ∧ s.drawAt 0 = .never ∧ t = (s.progress 1 [.busRequest devAddr none]).hungUp) := by
  simp only [runCommand, Host.Outcome.next.injEq] at h
  subst h
  rcases statusRead_cases data (accept s) with ⟨hr, he⟩ | ⟨hr, h0, v, hv, he⟩ | ⟨hr, h0, hv, he⟩ | ⟨hr, h0, he⟩
  · exact .inl ⟨hr, by rw [he]; rfl⟩
  · exact .inr (.inl ⟨hr, h0, v, hv, by rw [he]; rfl⟩)
  · exact .inr (.inr (.inl ⟨hr, h0, hv, by rw [he]; rfl⟩))
  · exact .inr (.inr (.inr ⟨hr, h0, by rw [he]; rfl⟩))

/-- `IS_AVAILABLE` answers the probe's status or hangs. -/
theorem execIsAvailable_cases (s t : State) (h : execIsAvailable s = .next t) :
    (s.completes 2 ∧ t = (s.progress 2 [.busBegin devAddr, .busEnd (some (s.statusAt 1))]).responded .ok
      (match s.statusAt 1 with | .ok => 0x01 | .busError => 0x00) 0) ∨
    (s.drawAt 0 = .never ∧ t = (s.progress 1 [.busBegin devAddr]).hungUp) ∨
    (s.drawAt 0 ≠ .never ∧ s.drawAt 1 = .never ∧
      t = (s.progress 2 [.busBegin devAddr, .busEnd none]).hungUp) := by
  simp only [execIsAvailable, runCommand, Host.Outcome.next.injEq] at h
  subst h
  rcases probe_cases (accept s) with ⟨hc, he⟩ | ⟨h0, he⟩ | ⟨h0, h1, he⟩
  · refine .inl ⟨hc, ?_⟩
    simp only [he, bind_done, statusAt_accept]
    cases s.statusAt 1 <;> rfl
  · exact .inr (.inl ⟨h0, by rw [he]; rfl⟩)
  · exact .inr (.inr ⟨h0, h1, by rw [he]; rfl⟩)

/-- `PRINT_BYTE` answers `NOT_READY`, or its transaction's status, or hangs. -/
theorem execPrintByte_cases (b : Byte) (s t : State) (h : execPrintByte b s = .next t) :
    (s.fsm ≠ .ready ∧ t = s.responded .notReady 0x00 0) ∨
    (s.fsm = .ready ∧ s.completes 4 ∧
      t = (s.progress 4 (txEvents selDR [b] (s.statusAt 3))).responded (statusResult (s.statusAt 3)) 0x00 0) ∨
    (s.fsm = .ready ∧ ∃ h, h < 4 ∧ s.completes h ∧ s.drawAt h = .never ∧
      t = (s.progress (h + 1) ((txUnended selDR [b]).take (h + 1))).hungUp) := by
  simp only [execPrintByte, runCommand, Host.Outcome.next.injEq] at h
  subst h
  by_cases hr : s.fsm = .ready
  · have hr' : (accept s).fsm = .ready := hr
    refine .inr ?_
    rcases tx_cases selDR [b] (accept s) with ⟨hc, he⟩ | ⟨h, hl, hc, hd, he⟩
    · exact .inl ⟨hr, hc, by rw [gated_ready hr', writeData, he, bind_done, reportStatus_eq]; rfl⟩
    · exact .inr ⟨hr, h, hl, hc, hd, by rw [gated_ready hr', writeData, he]; rfl⟩
  · have hr' : (accept s).fsm ≠ .ready := hr
    exact .inl ⟨hr, by rw [gated_not_ready hr']; rfl⟩

/-- `PRINT_SEQ` answers `NOT_READY`, or its transaction's status, or hangs in its transaction, or waits for payload. -/
theorem execPrintSeq_cases (n : Nat) (s t : State) (h : execPrintSeq n s = .next t) :
    (s.fsm ≠ .ready ∧ t = s.responded .notReady 0x00 0) ∨
    (s.fsm = .ready ∧ n ≤ s.payload.length ∧ s.completes (n + 3) ∧
      t = ((s.progress (n + 3) (txEvents selDR (s.payload.take n) (s.statusAt (n + 2)))).setPayload
        (s.payload.drop n)).responded (statusResult (s.statusAt (n + 2))) 0x00 0) ∨
    (s.fsm = .ready ∧ n ≤ s.payload.length ∧ ∃ h p, h < n + 3 ∧ s.completes h ∧ s.drawAt h = .never ∧
      t = (((s.progress (h + 1) ((txUnended selDR (s.payload.take n)).take (h + 1))).setPayload p).tookFree).hungUp) ∨
    (s.fsm = .ready ∧ s.payload.length < n ∧ ∃ m k p, k ≤ s.payload.length + 2 ∧
      (s.completes (s.payload.length + 2) → p = []) ∧
      t = (((s.progress k ((dataOpening s.payload).take m)).setPayload p).tookFree).hungUp) := by
  simp only [execPrintSeq, runCommand, Host.Outcome.next.injEq] at h
  subst h
  by_cases hr : s.fsm = .ready
  · have hr' : (accept s).fsm = .ready := hr
    refine .inr ?_
    rcases sendPayload_cases n (accept s) with ⟨hn, hc, he⟩ | ⟨hn, h, p, hl, hc, hd, he⟩ | ⟨hn, m, k, p, hk, hp, he⟩
    · exact .inl ⟨hr, hn, hc, by rw [gated_ready hr', he, bind_done, reportStatus_eq]; rfl⟩
    · exact .inr (.inl ⟨hr, hn, h, p, hl, hc, hd, by rw [gated_ready hr', he]; rfl⟩)
    · exact .inr (.inr ⟨hr, hn, m, k, p, hk, hp, by rw [gated_ready hr', he]; rfl⟩)
  · have hr' : (accept s).fsm ≠ .ready := hr
    exact .inl ⟨hr, by rw [gated_not_ready hr']; rfl⟩

/-- `INIT` under `PER_INSTRUCTION`: hangs at `BusConfigure`, or succeeds, or fails at a transaction, or hangs in one. -/
theorem execInit_perInstruction_cases (n : Nat) (s t : State) (hg : s.grouping = .perInstruction)
    (h : execInit n s = .next t) :
    (s.drawAt 0 = .never ∧ t = ((s.progress 1 [.busConfigure]).setFsm .initializing).hungUp) ∨
    (s.completes 37 ∧ (∀ j, j < 9 → s.statusAt (4 * j + 4) = .ok) ∧
      t = ((s.progress 37 (.busConfigure :: (initOkEvents initSeq 1 ++ [.wait .initTail]))).initReady n).responded
        .ok 0x00 0) ∨
    (∃ j op, initSeq[j]? = some op ∧ s.completes (4 * j + 5) ∧ (∀ i, i < j → s.statusAt (4 * i + 4) = .ok) ∧
      s.statusAt (4 * j + 4) = .busError ∧
      t = ((s.progress (4 * j + 5) (.busConfigure ::
        (initOkEvents (initSeq.take j) 1 ++ txEvents selIR [op] .busError ++ [.wait .settle]))).initUndone).responded
        .busError 0x00 (1 + BitVec.ofNat 4 j)) ∨
    (∃ j op h, initSeq[j]? = some op ∧ h < 4 ∧ s.completes (4 * j + h + 1) ∧
      (∀ i, i < j → s.statusAt (4 * i + 4) = .ok) ∧ s.drawAt (4 * j + h + 1) = .never ∧
      t = (((s.progress (4 * j + h + 2) (.busConfigure ::
        (initOkEvents (initSeq.take j) 1 ++ (txUnended selIR [op]).take (h + 1)))).setFsm .initializing).setSeq
        (1 + BitVec.ofNat 4 j)).hungUp) := by
  simp only [execInit, runCommand, Host.Outcome.next.injEq] at h
  subst h
  have hd0 : ((accept s).setFsm .initializing).drawAt 0 = s.drawAt 0 := rfl
  by_cases h0 : s.drawAt 0 = .never
  · refine .inl ⟨h0, ?_⟩
    rw [initCommand, emit_hung (hd0.trans h0)]
    rfl
  · refine .inr ?_
    have hne : ((accept s).setFsm .initializing).drawAt 0 ≠ .never := hd0 ▸ h0
    have hdraw : ∀ j, (((accept s).setFsm .initializing).progress 1 [.busConfigure]).drawAt j = s.drawAt (j + 1) :=
      fun j => by rw [State.drawAt_progress, Nat.add_comm]; rfl
    have hstat : ∀ j, (((accept s).setFsm .initializing).progress 1 [.busConfigure]).statusAt j = s.statusAt (j + 1) :=
      fun j => by simp only [State.statusAt, hdraw]
    have extend : ∀ m, (((accept s).setFsm .initializing).progress 1 [.busConfigure]).completes m →
        s.completes (m + 1) := by
      intro m hm j hj
      cases j with
      | zero => exact h0
      | succ j => exact hdraw j ▸ hm j (by omega)
    have hgr : (((accept s).setFsm .initializing).progress 1 [.busConfigure]).grouping = .perInstruction := hg
    rw [initCommand, emit_done hne, bind_done]
    simp only [hgr]
    rcases initSteps_cases n initSeq 1 (((accept s).setFsm .initializing).progress 1 [.busConfigure]) with
      ⟨h1, h2, h3⟩ | ⟨j, o, h1, h2, h3, h4, h5⟩ | ⟨j, o, h, h1, h2, h3, h6, h4, h5⟩
    · exact .inl ⟨extend _ h1, fun j hj => hstat _ ▸ h2 j hj, by rw [h3, State.progress_progress]; rfl⟩
    · exact .inr (.inl ⟨j, o, h1, extend _ h2, fun i hi => hstat _ ▸ h3 i hi, hstat _ ▸ h4, by
        rw [h5, State.progress_progress, Nat.add_comm 1]; rfl⟩)
    · exact .inr (.inr ⟨j, o, h, h1, h2, extend _ h3, fun i hi => hstat _ ▸ h6 i hi, hdraw _ ▸ h4, by
        rw [h5, State.progress_progress, Nat.add_comm 1]; rfl⟩)

/-- `INIT` under `BATCHED`: hangs at `BusConfigure`; hangs in, or fails at, transaction 1, 2 or 3; or succeeds. -/
theorem execInit_batched_cases (n : Nat) (s t : State) (hg : s.grouping = .batched) (h : execInit n s = .next t) :
    (s.drawAt 0 = .never ∧ t = ((s.progress 1 [.busConfigure]).setFsm .initializing).hungUp) ∨
    (∃ h, h < 4 ∧ s.completes (h + 1) ∧ s.drawAt (h + 1) = .never ∧
      t = (((s.progress (h + 2) (.busConfigure :: (txUnended selIR [0x38]).take (h + 1))).setFsm
        .initializing).setSeq 1).hungUp) ∨
    (s.completes 5 ∧ s.statusAt 4 = .busError ∧
      t = ((s.progress 5 (.busConfigure :: (txEvents selIR [0x38] .busError ++ [.wait .settle]))).initUndone).responded
        .busError 0x00 1) ∨
    (s.statusAt 4 = .ok ∧ ∃ h, h < 4 ∧ s.completes (h + 5) ∧ s.drawAt (h + 5) = .never ∧
      t = (((s.progress (h + 6) (.busConfigure :: (settledTx 0x38 ++ (.wait .fsGap ::
        (txUnended selIR [0x39]).take (h + 1))))).setFsm .initializing).setSeq 2).hungUp) ∨
    (s.completes 9 ∧ s.statusAt 4 = .ok ∧ s.statusAt 8 = .busError ∧
      t = ((s.progress 9 (.busConfigure :: (settledTx 0x38 ++ (.wait .fsGap ::
        (txEvents selIR [0x39] .busError ++ [.wait .settle]))))).initUndone).responded .busError 0x00 2) ∨
    (s.statusAt 4 = .ok ∧ s.statusAt 8 = .ok ∧ ∃ h, h < 10 ∧ s.completes (h + 9) ∧ s.drawAt (h + 9) = .never ∧
      t = (((s.progress (h + 10) (.busConfigure :: (settledTx 0x38 ++ (.wait .fsGap :: (settledTx 0x39 ++
        (txUnended selIR initBatch).take (h + 1)))))).setFsm .initializing).setSeq 3).hungUp) ∨
    (s.completes 19 ∧ s.statusAt 4 = .ok ∧ s.statusAt 8 = .ok ∧ s.statusAt 18 = .busError ∧
      t = ((s.progress 19 (.busConfigure :: (settledTx 0x38 ++ (.wait .fsGap :: (settledTx 0x39 ++
        (txEvents selIR initBatch .busError ++ [.wait .initTail])))))).initUndone).responded .busError 0x00 3) ∨
    (s.completes 19 ∧ s.statusAt 4 = .ok ∧ s.statusAt 8 = .ok ∧ s.statusAt 18 = .ok ∧
      t = ((s.progress 19 (.busConfigure :: (settledTx 0x38 ++ (.wait .fsGap :: (settledTx 0x39 ++
        (txEvents selIR initBatch .ok ++ [.wait .initTail])))))).initReady n).responded .ok 0x00 0) := by
  simp only [execInit, runCommand, Host.Outcome.next.injEq] at h
  subst h
  have joined : ∀ (a b : Nat), s.completes a → (∀ k, k < b → s.drawAt (a + k) ≠ .never) → s.completes (a + b) := by
    intro a b ha hb k hk
    by_cases hka : k < a
    · exact ha k hka
    · have := hb (k - a) (by omega)
      rwa [show a + (k - a) = k by omega] at this
  by_cases h0 : s.drawAt 0 = .never
  · refine .inl ⟨h0, ?_⟩
    rw [initCommand, emit_hung (s := (accept s).setFsm .initializing) h0]
    rfl
  refine .inr ?_
  let s0 := (accept s).setFsm .initializing
  have hrun : initCommand n (accept s) = initBatched n (s0.progress 1 [.busConfigure]) := by
    have hgr : (s0.progress 1 [.busConfigure]).grouping = .batched := hg
    rw [initCommand, emit_done (s := (accept s).setFsm .initializing) h0, bind_done]
    simp only [s0] at hgr
    simp only [hgr, s0]
  have c1 : s.completes 1 := fun k hk => by rw [show k = 0 by omega]; exact h0
  have d1 : ∀ k, ((s0.progress 1 [.busConfigure]).setSeq 1).drawAt k = s.drawAt (1 + k) := fun k =>
    State.drawAt_progress s0 1 [.busConfigure] k
  rw [hrun, initBatched]
  rcases writeInstruction_cases 0x38 ((s0.progress 1 [.busConfigure]).setSeq 1) with ⟨hc, he⟩ | ⟨h, hl, hc, hd, he⟩
  · have c5 : s.completes 5 := joined 1 4 c1 fun k hk => d1 k ▸ hc k hk
    have e4 : ((s0.progress 1 [.busConfigure]).setSeq 1).statusAt 3 = s.statusAt 4 := by
      simp only [State.statusAt, d1]
    rw [he, e4, bind_done]
    refine .inr ?_
    cases h4 : s.statusAt 4 with
    | busError =>
      refine .inl ⟨c5, rfl, ?_⟩
      simp only [initFailed_eq, state_done, State.setSeq_progress, State.progress_progress]
      rfl
    | ok =>
      refine .inr ?_
      let s2 := (waitFor .fsGap (((s0.progress 1 [.busConfigure]).setSeq 1).progress 4 (settledTx 0x38))).setSeq 2
      have d2 : ∀ k, s2.drawAt k = s.drawAt (5 + k) := fun k => by
        have : s2.drawAt k = (((s0.progress 1 [.busConfigure]).setSeq 1).progress 4 (settledTx 0x38)).drawAt k := rfl
        rw [this, State.drawAt_progress, d1, ← Nat.add_assoc]
      have es2 : s2 = (s0.progress 5 (.busConfigure :: (settledTx 0x38 ++ [.wait .fsGap]))).setSeq 2 := by
        have : s2 = ((((s0.progress 1 [.busConfigure]).progress 4 (settledTx 0x38)).progress 0 [.wait .fsGap])).setSeq 2 := by
          simp only [s2, waitFor_eq]; rfl
        rw [this, State.progress_progress, State.progress_progress]
        simp
      show (_ ∨ _)
      simp only []
      rcases writeInstruction_cases 0x39 s2 with ⟨hc, he⟩ | ⟨h, hl, hc, hd, he⟩
      · have c9 : s.completes 9 := joined 5 4 c5 fun k hk => d2 k ▸ hc k hk
        have e8 : s2.statusAt 3 = s.statusAt 8 := by simp only [State.statusAt, d2]
        rw [show (waitFor .fsGap (((s0.progress 1 [.busConfigure]).setSeq 1).progress 4
          (txEvents selIR [0x38] .ok ++ [.wait .settle]))).setSeq 2 = s2 from rfl, he, e8, bind_done]
        refine .inr ?_
        cases h8 : s.statusAt 8 with
        | busError =>
          refine .inl ⟨c9, trivial, rfl, ?_⟩
          rw [es2]
          simp only [initFailed_eq, state_done, s0]
          rw [State.setSeq_progress, State.progress_progress]
          simp only [List.cons_append, List.append_assoc, List.nil_append]
          rfl
        | ok =>
          refine .inr ?_
          let s3 := (s2.progress 4 (settledTx 0x39)).setSeq 3
          have d3 : ∀ k, s3.drawAt k = s.drawAt (9 + k) := fun k => by
            have : s3.drawAt k = (s2.progress 4 (settledTx 0x39)).drawAt k := rfl
            rw [this, State.drawAt_progress, d2, ← Nat.add_assoc]
          have es3 : s3 = (s0.progress 9 (.busConfigure :: (settledTx 0x38 ++ (.wait .fsGap :: settledTx 0x39)))).setSeq 3 := by
            simp only [s3, es2]
            rw [State.setSeq_progress, State.progress_progress]
            simp only [List.cons_append, List.append_assoc, List.nil_append]
            rfl
          simp only []
          rw [show ((s2.progress 4 (txEvents selIR [0x39] .ok ++ [.wait .settle])).setSeq 3) = s3 from rfl]
          rcases tx_cases selIR initBatch s3 with ⟨hc, he⟩ | ⟨h, hl, hc, hd, he⟩
          · have c19 : s.completes 19 := joined 9 10 c9 fun k hk => d3 k ▸ hc k hk
            have e18 : s3.statusAt (initBatch.length + 2) = s.statusAt 18 := by
              simp only [State.statusAt, d3]; rfl
            rw [he, e18, bind_done]
            refine .inr ?_
            have wait : ∀ es, waitFor .initTail (s3.progress 10 es) = (s0.progress 19 (.busConfigure ::
                (settledTx 0x38 ++ (.wait .fsGap :: (settledTx 0x39 ++ (es ++ [.wait .initTail])))))).setSeq 3 := by
              intro es
              rw [waitFor_eq, State.progress_progress, es3]
              rw [State.setSeq_progress,
                State.progress_progress]
              simp only [List.cons_append, List.append_assoc]
            cases h18 : s.statusAt 18 with
            | busError =>
              refine .inl ⟨c19, trivial, trivial, rfl, ?_⟩
              simp only [show initBatch.length + 3 = 10 from rfl, wait]
              rfl
            | ok =>
              refine .inr ⟨c19, trivial, trivial, rfl, ?_⟩
              simp only [show initBatch.length + 3 = 10 from rfl, wait]
              rfl
          · refine .inl ⟨trivial, trivial, h, hl, ?_, ?_, ?_⟩
            · have := joined 9 h c9 fun k hk => d3 k ▸ hc k hk
              rwa [Nat.add_comm] at this
            · rw [Nat.add_comm, ← d3]; exact hd
            · rw [he, es3]
              simp only [bind_hung, state_hung]
              rw [State.setSeq_progress,
                State.progress_progress, show 9 + (h + 1) = h + 10 by omega]
              simp only [List.cons_append, List.append_assoc]
              rfl
      · refine .inl ⟨trivial, h, hl, ?_, ?_, ?_⟩
        · have := joined 5 h c5 fun k hk => d2 k ▸ hc k hk
          rwa [Nat.add_comm] at this
        · rw [Nat.add_comm, ← d2]; exact hd
        · rw [show (waitFor .fsGap (((s0.progress 1 [.busConfigure]).setSeq 1).progress 4
            (txEvents selIR [0x38] .ok ++ [.wait .settle]))).setSeq 2 = s2 from rfl, he, es2]
          simp only [bind_hung, state_hung]
          rw [State.setSeq_progress,
            State.progress_progress, show 5 + (h + 1) = h + 6 by omega]
          simp only [List.cons_append, List.append_assoc, List.nil_append]
          rfl
  · refine .inl ⟨h, hl, ?_, ?_, ?_⟩
    · have := joined 1 h c1 fun k hk => d1 k ▸ hc k hk
      rwa [Nat.add_comm] at this
    · rw [Nat.add_comm, ← d1]; exact hd
    · rw [he]
      simp only [bind_hung, state_hung]
      rw [State.setSeq_progress,
        State.progress_progress, show 1 + (h + 1) = h + 2 by omega]
      rfl

end Sys2Proof.Machine
end

