-- ==== Sys2Proof/Laws/PerInstr.lean ====
section
/-! SUPPORT. Per instruction: the encoding is a word of the instruction's row of spec/opcode_table.json. -/

namespace Sys2Proof.Laws

/-- A row's format, `match` and `mask` (30_encoding.md R81). -/
inductive TableRow where
  | command (pattern mask : Word)
  | byteWord (format : ByteFormat) (pattern mask : Byte)
  deriving DecidableEq, Repr

/-- A word is valid for a row when `word & mask = match` (30_encoding.md R81). -/
def TableRow.accepts : TableRow → CodeWord → Prop
  | .command pattern mask, .command word _ => word &&& mask = pattern
  | .byteWord format pattern mask, .byteWord f b => f = format ∧ b &&& mask = pattern
  | .command _ _, .byteWord _ _ => False
  | .byteWord _ _ _, .command _ _ => False

/-- The row of each instruction, copied from spec/opcode_table.json. -/
def tableRow : Instr → TableRow
  | .init _ => .command 0x0000 0xFEFF
  | .isAvailable => .command 0x1000 0xFFFF
  | .printByte _ => .command 0x2000 0xFF00
  | .printSeq _ => .command 0x3000 0xFFFF
  | .clear => .command 0x4000 0xFFFF
  | .home => .command 0x5000 0xFFFF
  | .setEntryMode _ _ => .command 0x6000 0xFCFF
  | .setOnOff _ _ _ => .command 0x7000 0xF8FF
  | .setScreenShift _ => .command 0x8000 0xFEFF
  | .setCursorShift _ => .command 0x9000 0xFEFF
  | .setDataAddress _ => .command 0xA000 0xFF80
  | .setDataAddressCr _ _ => .command 0xB000 0xFE00
  | .getStatus => .command 0xC000 0xFFFF
  | .getIsBusy => .command 0xD000 0xFFFF
  | .getAddress => .command 0xE000 0xFFFF
  | .lcdClear => .byteWord .lcdIr8 0x01 0xFF
  | .lcdReturnHome => .byteWord .lcdIr8 0x02 0xFF
  | .lcdEntryModeSet _ _ => .byteWord .lcdIr8 0x04 0xFC
  | .lcdDisplayControl _ _ _ => .byteWord .lcdIr8 0x08 0xF8
  | .lcdCursorDisplayShift _ _ => .byteWord .lcdIr8 0x10 0xF3
  | .lcdFunctionSet _ _ _ _ => .byteWord .lcdIr8 0x20 0xE2
  | .lcdSetCgramAddress _ => .byteWord .lcdIr8 0x40 0xC0
  | .lcdSetDdramAddress _ => .byteWord .lcdIr8 0x80 0x80
  | .extOscFrequency => .byteWord .lcdIr8Ext 0x14 0xFF
  | .extContrastLow => .byteWord .lcdIr8Ext 0x79 0xFF
  | .extPowerIconContrastHigh => .byteWord .lcdIr8Ext 0x50 0xFF
  | .extFollowerControl => .byteWord .lcdIr8Ext 0x6C 0xFF
  | .selectorInstruction => .byteWord .controlByte 0x00 0xFF
  | .selectorData => .byteWord .controlByte 0x40 0xFF
  | .dataByte _ => .byteWord .lcdDr8 0x00 0x00
  | .statusByte _ _ => .byteWord .status8 0x00 0x00

namespace EncodingMatchesTableRow

/-- The encoding of the instruction is a word of its row, in the row's format. -/
def Statement (i : Instr) : Prop := (tableRow i).accepts (encode i)

theorem init (n : Nat) : Statement (.init n) := by
  have bit : ∀ f : Bool, commandWord 0x0 false false f 0 &&& 0xFEFF = 0x0000 := by decide
  exact bit _

theorem isAvailable : Statement (.isAvailable) := rfl

theorem printByte (b : Byte) : Statement (.printByte b) := by
  have bits : ∀ a : Byte, commandWord 0x2 false false false a &&& 0xFF00 = 0x2000 := by decide
  exact bits b

theorem printSeq (n : Nat) : Statement (.printSeq n) := rfl

theorem clear : Statement (.clear) := rfl

theorem home : Statement (.home) := rfl

theorem setEntryMode (i : Bool) (s : Bool) : Statement (.setEntryMode i s) := by
  cases i <;> cases s <;> rfl

theorem setOnOff (o : Bool) (c : Bool) (b : Bool) : Statement (.setOnOff o c b) := by
  cases o <;> cases c <;> cases b <;> rfl

theorem setScreenShift (r : Bool) : Statement (.setScreenShift r) := by
  cases r <;> rfl

theorem setCursorShift (r : Bool) : Statement (.setCursorShift r) := by
  cases r <;> rfl

theorem setDataAddress (a : Addr7) : Statement (.setDataAddress a) := by
  have bits : ∀ x : Addr7, commandWord 0xA false false false (0#1 ++ x) &&& 0xFF80 = 0xA000 := by decide
  exact bits a

theorem setDataAddressCr (c : Byte) (r : Nat) : Statement (.setDataAddressCr c r) := by
  have bits : ∀ (f : Bool) (a : Byte), commandWord 0xB false false f a &&& 0xFE00 = 0xB000 := by decide
  exact bits _ _

theorem getStatus : Statement (.getStatus) := rfl

theorem getIsBusy : Statement (.getIsBusy) := rfl

theorem getAddress : Statement (.getAddress) := rfl

theorem lcdClear : Statement (.lcdClear) := ⟨rfl, rfl⟩

theorem lcdReturnHome : Statement (.lcdReturnHome) := ⟨rfl, rfl⟩

theorem lcdEntryModeSet (i : Bool) (s : Bool) : Statement (.lcdEntryModeSet i s) := by
  cases i <;> cases s <;> exact ⟨rfl, rfl⟩

theorem lcdDisplayControl (o : Bool) (c : Bool) (b : Bool) : Statement (.lcdDisplayControl o c b) := by
  cases o <;> cases c <;> cases b <;> exact ⟨rfl, rfl⟩

theorem lcdCursorDisplayShift (s : Bool) (r : Bool) : Statement (.lcdCursorDisplayShift s r) := by
  cases s <;> cases r <;> exact ⟨rfl, rfl⟩

theorem lcdFunctionSet (e : Bool) (t : Bool) (f : Bool) (x : Bool) : Statement (.lcdFunctionSet e t f x) := by
  cases e <;> cases t <;> cases f <;> cases x <;> exact ⟨rfl, rfl⟩

theorem lcdSetCgramAddress (a6 : BitVec 6) : Statement (.lcdSetCgramAddress a6) := by
  have bits : ∀ x : BitVec 6, (0b01#2 ++ x : Byte) &&& 0xC0 = 0x40 := by decide
  exact ⟨rfl, bits a6⟩

theorem lcdSetDdramAddress (a : Addr7) : Statement (.lcdSetDdramAddress a) := by
  have bits : ∀ x : Addr7, (0b1#1 ++ x : Byte) &&& 0x80 = 0x80 := by decide
  exact ⟨rfl, bits a⟩

theorem extOscFrequency : Statement (.extOscFrequency) := ⟨rfl, rfl⟩

theorem extContrastLow : Statement (.extContrastLow) := ⟨rfl, rfl⟩

theorem extPowerIconContrastHigh : Statement (.extPowerIconContrastHigh) := ⟨rfl, rfl⟩

theorem extFollowerControl : Statement (.extFollowerControl) := ⟨rfl, rfl⟩

theorem selectorInstruction : Statement (.selectorInstruction) := ⟨rfl, rfl⟩

theorem selectorData : Statement (.selectorData) := ⟨rfl, rfl⟩

theorem dataByte (d : Byte) : Statement (.dataByte d) := by
  exact ⟨rfl, by simp⟩

theorem statusByte (bf : Bool) (a : Addr7) : Statement (.statusByte bf a) := by
  exact ⟨rfl, by simp⟩

end EncodingMatchesTableRow

end Sys2Proof.Laws
end

