-- ==== Sys2Proof/Laws/Step.lean ====
section
/-! SUPPORT. Everything a step can do, and what a command run is made of: what the claims about the whole machine cite
instead of unfolding `step`, `fetch` and `observe`. -/

namespace Sys2Proof.Machine

/-- Every meaning answers a next state. -/
theorem exec_next (i : Instr) (s : State) : ∃ t, exec i s = .next t := by
  cases i <;> exact ⟨_, rfl⟩

theorem invalidCommand_eq (s : State) : invalidCommand s = .next (s.responded .invalidCommand 0x00 0) := rfl

/-- A command word decodes to a command. -/
theorem isCommand_of_decode {w len : Word} {i : Instr} (h : decode (.command w len) = .instr i) :
    i.isCommand = true := by
  simp only [decode, decodeCommand, commandOf] at h
  repeat' split at h
  all_goals first | (cases h; rfl) | cases h

/-- Everything a step can do: a busy block takes a block reset or nothing; an idle block runs or refuses the byte at its
stage, else it takes up the host's next action, if any. -/
theorem step_cases (s : State) :
    (s.busy = true ∧ HostAction.blockReset ∈ s.host ∧
      step s = .next (blockReset (s.setHost (s.host.erase .blockReset)))) ∨
    (s.busy = true ∧ HostAction.blockReset ∉ s.host ∧ step s = .next s) ∨
    (s.busy = false ∧ ∃ f b i, s.stage = some (f, b) ∧ decode (.byteWord f b) = .instr i ∧
      step s = exec i (s.setStage none)) ∨
    (s.busy = false ∧ ∃ f b r, s.stage = some (f, b) ∧ decode (.byteWord f b) = .rejected r ∧
      step s = .refused (.unlistedByte r)) ∨
    (s.busy = false ∧ s.stage = none ∧ s.host = [] ∧ step s = .next s) ∨
    (s.busy = false ∧ s.stage = none ∧ ∃ rest, s.host = .blockReset :: rest ∧
      step s = .next (blockReset (s.setHost rest))) ∨
    (s.busy = false ∧ s.stage = none ∧ ∃ w len rest i, s.host = .command w len :: rest ∧
      decode (.command w len) = .instr i ∧ step s = exec i (s.setHost rest)) ∨
    (s.busy = false ∧ s.stage = none ∧ ∃ w len rest r, s.host = .command w len :: rest ∧
      decode (.command w len) = .rejected r ∧ step s = .next ((s.setHost rest).responded .invalidCommand 0x00 0)) := by
  cases hb : s.busy with
  | true =>
    by_cases hm : HostAction.blockReset ∈ s.host
    · exact .inl ⟨rfl, hm, by simp [step, fetch, hb, hm]⟩
    · exact .inr (.inl ⟨rfl, hm, by simp [step, fetch, hb, hm]⟩)
  | false =>
    refine .inr (.inr ?_)
    cases hs : s.stage with
    | some word =>
      obtain ⟨f, b⟩ := word
      cases hd : decode (.byteWord f b) with
      | instr i => exact .inl ⟨rfl, f, b, i, rfl, hd, by simp [step, fetch, hb, hs, hd]⟩
      | rejected r => exact .inr (.inl ⟨rfl, f, b, r, rfl, hd, by simp [step, fetch, hb, hs, hd]⟩)
    | none =>
      refine .inr (.inr ?_)
      cases hh : s.host with
      | nil => exact .inl ⟨rfl, rfl, rfl, by simp [step, fetch, hb, hs, hh]⟩
      | cons action rest =>
        refine .inr ?_
        cases action with
        | blockReset => exact .inl ⟨rfl, rfl, rest, rfl, by simp [step, fetch, hb, hs, hh]⟩
        | command w len =>
          refine .inr ?_
          cases hd : decode (.command w len) with
          | instr i => exact .inl ⟨rfl, rfl, w, len, rest, i, rfl, hd, by simp [step, fetch, hb, hs, hh, hd]⟩
          | rejected r =>
            exact .inr ⟨rfl, rfl, w, len, rest, r, rfl, hd, by simp [step, fetch, hb, hs, hh, hd, invalidCommand_eq]⟩

/-! ## Command runs -/

/-- A step accepts a command exactly when the block is idle, its byte stage empty and a command the host's next
action. -/
theorem accepted_eq_some (s : State) (w len : Word) :
    s.accepted = some (w, len) ↔ s.busy = false ∧ s.stage = none ∧ ∃ rest, s.host = .command w len :: rest := by
  unfold State.accepted State.offered
  cases s.busy <;> cases s.stage <;> simp
  split
  · rename_i heq
    simp [heq]
  · rename_i hne
    simp only [reduceCtorEq, false_iff, not_exists]
    exact fun rest h => hne w len rest h

/-- What the step that accepts a command does: it runs the instruction the word decodes to, or finishes
`INVALID_COMMAND`. -/
theorem step_of_accepted {s : State} {c : Word × Word} (h : s.accepted = some c) :
    ∃ rest, s.busy = false ∧ s.stage = none ∧ s.host = .command c.1 c.2 :: rest ∧
      ((∃ i, i.isCommand = true ∧ decode (.command c.1 c.2) = .instr i ∧ step s = exec i (s.setHost rest)) ∨
       (∃ r, decode (.command c.1 c.2) = .rejected r ∧
        step s = .next ((s.setHost rest).responded .invalidCommand 0x00 0))) := by
  obtain ⟨hb, hs, rest, hh⟩ := (accepted_eq_some s c.1 c.2).1 h
  refine ⟨rest, hb, hs, hh, ?_⟩
  cases hd : decode (.command c.1 c.2) with
  | instr i => exact .inl ⟨i, isCommand_of_decode hd, rfl, by simp [step, fetch, hb, hs, hh, hd]⟩
  | rejected r => exact .inr ⟨r, rfl, by simp [step, fetch, hb, hs, hh, hd, invalidCommand_eq]⟩

theorem accepted_busy {s : State} (h : s.busy = true) : s.accepted = none := by simp [State.accepted, h]

@[simp] theorem observe_zero (s : State) : observe 0 s = ⟨[], s⟩ := rfl

theorem observe_not_accepted {s : State} (h : s.accepted = none) (n : Nat) : observe n s = ⟨[], s⟩ := by
  cases n with
  | zero => rfl
  | succ n => simp [observe, h]

theorem observe_accepted {s t : State} {c : Word × Word} (h : s.accepted = some c) (ht : step s = .next t) (n : Nat) :
    observe (n + 1) s = ⟨observation c s t :: (observe n t).observed, (observe n t).final⟩ := by
  simp [observe, h, ht]

@[simp] theorem block_fsm (s : State) : s.block.fsm = s.fsm := rfl
@[simp] theorem block_lines (s : State) : s.block.lines = s.lines := rfl
@[simp] theorem block_seq (s : State) : s.block.seq = s.seq := rfl
@[simp] theorem block_busy (s : State) : s.block.busy = s.busy := rfl
@[simp] theorem block_rspValid (s : State) : s.block.rspValid = s.rspValid := rfl
@[simp] theorem block_rspResult (s : State) : s.block.rspResult = s.rspResult := rfl
@[simp] theorem block_rspData (s : State) : s.block.rspData = s.rspData := rfl
@[simp] theorem block_rspStep (s : State) : s.block.rspStep = s.rspStep := rfl

end Sys2Proof.Machine
end

