-- ==== Sys2Proof/Tests/Slice0.lean ====
section
/-! SUPPORT. The model's own tests: the smoke test of WellFormed, every constructor's decoding from a word written out
from the spec's encodings, single steps against the spec's vectors (95_test_vectors.md), and for every obligation with
hypotheses a state and operands that meet them. -/

namespace Sys2Proof.Tests

open Sys2Proof.Machine

/-! ## WellFormed refuses what is ill formed -/

theorem test_init_of_no_line_is_ill_formed : (Instr.init 0).wellFormed = false := by decide

theorem test_init_of_three_lines_is_ill_formed : (Instr.init 3).wellFormed = false := by decide

theorem test_print_seq_past_cmd_len_is_ill_formed : (Instr.printSeq 65536).wellFormed = false := by decide

theorem test_row_two_is_ill_formed : (Instr.setDataAddressCr 0 2).wellFormed = false := by decide

/-! ## Decoding, words written out from 30_encoding.md R86, R87: `OP`, reserved bit, `F[2:0]`, `A[7:0]` -/

/-- 95_test_vectors.md V1: the valid words. -/
theorem test_decode_commands :
    decodeTableWord 16 0b0000_0_000_00000000 = some (.init 1) ∧
    decodeTableWord 16 0b0000_0_001_00000000 = some (.init 2) ∧
    decodeTableWord 16 0b0001_0_000_00000000 = some .isAvailable ∧
    decodeTableWord 16 0b0010_0_000_11111111 = some (.printByte 0xFF) ∧
    decodeTableWord 32 (0b0011_0_000_00000000 + 65536 * 2) = some (.printSeq 2) ∧
    decodeTableWord 16 0b0100_0_000_00000000 = some .clear ∧
    decodeTableWord 16 0b0101_0_000_00000000 = some .home ∧
    decodeTableWord 16 0b0110_0_010_00000000 = some (.setEntryMode true false) := by decide

theorem test_decode_more_commands :
    decodeTableWord 16 0b0111_0_100_00000000 = some (.setOnOff true false false) ∧
    decodeTableWord 16 0b1000_0_001_00000000 = some (.setScreenShift true) ∧
    decodeTableWord 16 0b1001_0_001_00000000 = some (.setCursorShift true) ∧
    decodeTableWord 16 0b1010_0_000_01111111 = some (.setDataAddress 0x7F) ∧
    decodeTableWord 16 0b1011_0_001_00000101 = some (.setDataAddressCr 5 1) ∧
    decodeTableWord 16 0b1100_0_000_00000000 = some .getStatus ∧
    decodeTableWord 16 0b1101_0_000_00000000 = some .getIsBusy ∧
    decodeTableWord 16 0b1110_0_000_00000000 = some .getAddress := by decide

/-- 95_test_vectors.md V1: the invalid words. -/
theorem test_decode_rejects_invalid_words :
    [0x0200, 0x0001, 0x0800, 0x1001, 0x2100, 0x3005, 0x5100, 0x6400, 0x7701, 0x8200, 0xA080, 0xA100, 0xB200, 0xC001,
     0xF000, 0xFFFF].all (fun w => decodeTableWord 16 w == none) = true := by decide

/-- 30_encoding.md R61 to R68: base code and mode bits. -/
theorem test_decode_instruction_bytes :
    decode (.byteWord .lcdIr8 0b00000001) = .instr .lcdClear ∧
    decode (.byteWord .lcdIr8 0b00000010) = .instr .lcdReturnHome ∧
    decode (.byteWord .lcdIr8 0b000001_1_0) = .instr (.lcdEntryModeSet true false) ∧
    decode (.byteWord .lcdIr8 0b00001_1_0_0) = .instr (.lcdDisplayControl true false false) ∧
    decode (.byteWord .lcdIr8 0b0001_1_0_00) = .instr (.lcdCursorDisplayShift true false) ∧
    decode (.byteWord .lcdIr8 0b001_1_1_0_0_1) = .instr (.lcdFunctionSet true true false true) ∧
    decode (.byteWord .lcdIr8 0b01_100001) = .instr (.lcdSetCgramAddress 0b100001) ∧
    decode (.byteWord .lcdIr8 0b1_1000000) = .instr (.lcdSetDdramAddress 0x40) := by decide

/-- 30_encoding.md R70, R72, R75, R78. -/
theorem test_decode_other_bytes :
    decode (.byteWord .lcdIr8Ext 0x14) = .instr .extOscFrequency ∧
    decode (.byteWord .lcdIr8Ext 0x79) = .instr .extContrastLow ∧
    decode (.byteWord .lcdIr8Ext 0x50) = .instr .extPowerIconContrastHigh ∧
    decode (.byteWord .lcdIr8Ext 0x6C) = .instr .extFollowerControl ∧
    decode (.byteWord .controlByte 0x00) = .instr .selectorInstruction ∧
    decode (.byteWord .controlByte 0x40) = .instr .selectorData ∧
    decode (.byteWord .lcdDr8 0x14) = .instr (.dataByte 0x14) ∧
    decode (.byteWord .status8 0b1_1000101) = .instr (.statusByte true 0x45) := by decide

/-- 30_encoding.md R60, R69, R70, R72: bytes of no row are rejected by name, not read as a neighbour. -/
theorem test_decode_rejects_other_bytes :
    decode (.byteWord .lcdIr8 0x00) = .rejected .noBaseCode ∧
    decode (.byteWord .lcdIr8 0x03) = .rejected .unnamedBit ∧
    decode (.byteWord .lcdIr8 0x3A) = .rejected .unnamedBit ∧
    decode (.byteWord .lcdIr8 0x11) = .rejected .unnamedBit ∧
    decode (.byteWord .lcdIr8Ext 0x15) = .rejected .notExtendedLiteral ∧
    decode (.byteWord .controlByte 0x41) = .rejected .notSelector := by decide

/-! ## Single steps against the vectors of 95_test_vectors.md -/

/-- `n` transport events that complete with status `ok`. -/
def oks (n : Nat) : List Draw := List.replicate n (.answer .ok .failure)

/-- A draw whose write status is `busError`. -/
def bad : Draw := .answer .busError .failure

/-- A draw of an event that never completes. -/
def dead : Draw := .never

/-- After block reset, with the transport's next draws. -/
def fresh (draws : List Draw) : State := { State.reset with draws := draws }

/-- `{READY, lines}` of 95_test_vectors.md, with the transport's next draws. -/
def ready (lines : Nat) (draws : List Draw) : State := { fresh draws with fsm := .ready, lines := some lines }

/-- `TX[sel, payload]` with a status, in the notation of 40_init_sequencer.md. -/
def busTx (bytes : List Byte) (status : BusStatus) : List Event :=
  .busBegin 0x3E :: bytes.map .busWrite ++ [.busEnd (some status)]

/-- `TX[0x00, op]` with a status, then `W(T_SETTLE)`. -/
def opTx (op : Byte) (status : BusStatus) : List Event := busTx [0x00, op] status ++ [.wait .settle]

/-- Trace, response and `{fsm, lines}` after one step that runs a command word. -/
def ran (s : State) (w : Nat) : Option (List Event × Option Response × Fsm × Option Nat) :=
  match step (s.withFetchWord 32 w) with
  | .next t => some (t.trace, t.response, t.fsm, t.lines)
  | .fault _ => none
  | .refused _ => none

/-- Trace after one step that runs a byte word. -/
def sent (s : State) (f : ByteFormat) (b : Byte) : Option (List Event) :=
  match step (placeCodeWord (.byteWord f b) s) with
  | .next t => some t.trace
  | .fault _ => none
  | .refused _ => none

/-- V2 #2. -/
theorem test_init_one_line : (ran (fresh (oks 37)) 0x0000).map (fun r => (r.2.1, r.2.2)) =
    some (some ⟨0, 0x00, 0⟩, .ready, some 1) := by decide

/-- V2 #5. -/
theorem test_init_second_transaction_fails : ran (fresh (oks 8 ++ [bad])) 0x0100 =
    some (List.flatten [[.busConfigure], opTx 0x38 .ok, [.wait .fsGap], opTx 0x39 .busError],
      some ⟨3, 0x00, 2⟩, .uninit, none) := by decide

/-- V2 #10. -/
theorem test_batched_init_fails :
    ran { fresh (oks 18 ++ [bad]) with grouping := .batched } 0x0100 =
    some (List.flatten [[.busConfigure], opTx 0x38 .ok, [.wait .fsGap], opTx 0x39 .ok,
        busTx [0x00, 0x14, 0x79, 0x50, 0x6C, 0x0C, 0x01, 0x06] .busError, [.wait .initTail]],
      some ⟨3, 0x00, 3⟩, .uninit, none) := by decide

/-- V3. -/
theorem test_is_available : ran (fresh (oks 2)) 0x1000 =
    some ([.busBegin 0x3E, .busEnd (some .ok)], some ⟨0, 0x01, 0⟩, .uninit, none) := by decide

/-- V3, V8. -/
theorem test_is_not_available : ran (fresh [.answer .ok .failure, bad]) 0x1000 =
    some ([.busBegin 0x3E, .busEnd (some .busError)], some ⟨0, 0x00, 0⟩, .uninit, none) := by decide

/-- V4. -/
theorem test_print_byte_fails : ran (ready 2 (oks 3 ++ [bad])) 0x2041 =
    some (busTx [0x40, 0x41] .busError, some ⟨3, 0x00, 0⟩, .ready, some 2) := by decide

/-- V4. -/
theorem test_print_seq : ran { ready 1 (oks 6) with payload := [0x00, 0x40, 0x00, 0x55] } (0x3000 + 65536 * 3) =
    some (busTx [0x40, 0x00, 0x40, 0x00] .ok, some ⟨0, 0x00, 0⟩, .ready, some 1) := by decide

/-- V4: `PRINT_SEQ []`. -/
theorem test_print_seq_of_nothing : ran (ready 2 (oks 3)) 0x3000 =
    some (busTx [0x40] .ok, some ⟨0, 0x00, 0⟩, .ready, some 2) := by decide

/-- V5. -/
theorem test_clear_fails : ran (ready 2 (oks 3 ++ [bad])) 0x4000 =
    some (opTx 0x01 .busError, some ⟨3, 0x00, 0⟩, .ready, some 2) := by decide

/-- V5. -/
theorem test_clear_not_ready : ran (fresh []) 0x4000 = some ([], some ⟨2, 0x00, 0⟩, .uninit, none) := by decide

/-- V5. -/
theorem test_home : ran (ready 1 (oks 4)) 0x5000 =
    some (opTx 0x02 .ok, some ⟨0, 0x00, 0⟩, .ready, some 1) := by decide

/-- S2. -/
theorem test_set_entry_mode : ran (ready 1 (oks 4)) 0x6200 =
    some (opTx 0x06 .ok, some ⟨0, 0x00, 0⟩, .ready, some 1) := by decide

/-- S1. -/
theorem test_set_on_off : ran (ready 1 (oks 4)) 0x7600 =
    some (opTx 0x0E .ok, some ⟨0, 0x00, 0⟩, .ready, some 1) := by decide

/-- S7. -/
theorem test_set_screen_shift : ran (ready 1 (oks 4)) 0x8100 =
    some (opTx 0x1C .ok, some ⟨0, 0x00, 0⟩, .ready, some 1) := by decide

/-- V5. -/
theorem test_set_cursor_shift : ran (ready 1 (oks 4)) 0x9000 =
    some (opTx 0x10 .ok, some ⟨0, 0x00, 0⟩, .ready, some 1) := by decide

/-- V5. -/
theorem test_set_data_address : ran (ready 1 (oks 4)) 0xA040 =
    some (opTx 0xC0 .ok, some ⟨0, 0x00, 0⟩, .ready, some 1) := by decide

/-- V6: the sum wraps. -/
theorem test_row_one_wraps : ran (ready 2 (oks 4)) 0xB1FF =
    some (opTx 0xBF .ok, some ⟨0, 0x00, 0⟩, .ready, some 2) := by decide

/-- V6. -/
theorem test_row_one_ignored : ran (ready 1 []) 0xB1FF = some ([], some ⟨1, 0x00, 0⟩, .ready, some 1) := by decide

/-- V7. -/
theorem test_get_status : ran (ready 1 [.answer .ok (.byte 0xC5)]) 0xC000 =
    some ([.busRequest 0x3E (some (.byte 0xC5))], some ⟨0, 0xC5, 0⟩, .ready, some 1) := by decide

/-- V7. -/
theorem test_get_is_busy : ran (ready 1 [.answer .ok (.byte 0x80)]) 0xD000 =
    some ([.busRequest 0x3E (some (.byte 0x80))], some ⟨0, 0x01, 0⟩, .ready, some 1) := by decide

/-- V7. -/
theorem test_get_address : ran (ready 1 [.answer .ok (.byte 0xC5)]) 0xE000 =
    some ([.busRequest 0x3E (some (.byte 0xC5))], some ⟨0, 0x45, 0⟩, .ready, some 1) := by decide

/-- V7. -/
theorem test_get_address_fails : ran (ready 1 (oks 1)) 0xE000 =
    some ([.busRequest 0x3E (some .failure)], some ⟨4, 0x00, 0⟩, .ready, some 1) := by decide

/-- V8. -/
theorem test_invalid_before_gate : ran (fresh []) 0x4001 = some ([], some ⟨5, 0x00, 0⟩, .uninit, none) := by decide

/-- V8. -/
theorem test_gate_before_row : ran (fresh []) 0xB100 = some ([], some ⟨2, 0x00, 0⟩, .uninit, none) := by decide

/-- 30_encoding.md R61, R62, R63 to R65, with 45_transmit_primitives.md R173. -/
theorem test_instruction_bytes_sent :
    sent (fresh (oks 4)) .lcdIr8 0x01 = some (opTx 0x01 .ok) ∧
    sent (fresh (oks 4)) .lcdIr8 0x02 = some (opTx 0x02 .ok) ∧
    sent (fresh (oks 4)) .lcdIr8 0x06 = some (opTx 0x06 .ok) ∧
    sent (fresh (oks 4)) .lcdIr8 0x0D = some (opTx 0x0D .ok) ∧
    sent (fresh (oks 4)) .lcdIr8 0x18 = some (opTx 0x18 .ok) := by decide

/-- 30_encoding.md R66 to R68. -/
theorem test_more_instruction_bytes_sent :
    sent (fresh (oks 4)) .lcdIr8 0x39 = some (opTx 0x39 .ok) ∧
    sent (fresh (oks 4)) .lcdIr8 0x61 = some (opTx 0x61 .ok) ∧
    sent (fresh (oks 4)) .lcdIr8 0xC0 = some (opTx 0xC0 .ok) := by decide

/-- 30_encoding.md R70. -/
theorem test_extended_bytes_sent :
    [0x14, 0x79, 0x50, 0x6C].all (fun b => decide (sent (fresh (oks 4)) .lcdIr8Ext b =
      some (opTx b .ok))) = true := by decide

/-- 30_encoding.md R72, R75, R77. -/
theorem test_other_bytes_sent :
    sent (fresh (oks 3)) .controlByte 0x00 = some (busTx [0x00] .ok) ∧
    sent (fresh (oks 3)) .controlByte 0x40 = some (busTx [0x40] .ok) ∧
    sent (fresh (oks 4)) .lcdDr8 0x48 = some (busTx [0x40, 0x48] .ok) ∧
    sent (fresh (oks 1)) .status8 0x85 = some [.busRequest 0x3E (some (.byte 0x85))] := by decide

/-! ## Witnesses: the hypotheses of the obligations, met together

Each theorem names its obligation and gives a state and operands that meet every hypothesis of one clause. -/

/-- The outcome is a next state with the property. -/
def nextHas (o : Host.Outcome State Fault Refusal) (p : State → Bool) : Bool :=
  match o with
  | .next t => p t
  | .fault _ => false
  | .refused _ => false

theorem exists_next {o : Host.Outcome State Fault Refusal} {p : State → Bool} (h : nextHas o p = true) :
    ∃ t, o = .next t ∧ p t = true := by
  cases o with
  | next t => exact ⟨t, rfl, h⟩
  | fault _ => cases h
  | refused _ => cases h

theorem witness_encoded_instruction : (Instr.init 1).wellFormed = true ∧ (Instr.init 2).wellFormed = true ∧
    (Instr.printSeq 65535).wellFormed = true ∧ (Instr.setDataAddressCr 0xFF 1).wellFormed = true := by decide

theorem witness_decoded_instruction : decode (.command 0x3000 0xFFFF) = .instr (.printSeq 65535) := by decide

theorem witness_code_word_byte : decode (.byteWord .lcdIr8 0x39) = .instr (.lcdFunctionSet true true false true) := by
  decide

theorem witness_code_word_command : decode (.command 0xB1FF 7) = .instr (.setDataAddressCr 0xFF 1) := by decide

theorem witness_row_matches : validForSomeRow 0xA07F = true ∧ validForSomeRow 0xA080 = false := by decide

/-- Idle, with a command offered. -/
def offering (w len : Word) (s : State) : State := { s with host := [.command w len] }

theorem witness_invalid_word_code : (offering 0xF000 0 (fresh [])).busy = false ∧
    (offering 0xF000 0 (fresh [])).stage = none ∧
    (offering 0xF000 0 (fresh [])).host = .command 0xF000 0 :: [] ∧ InvalidWord 0xF000 := by
  unfold InvalidWord
  decide

theorem witness_invalid_word_reserved_bit : (offering 0x0800 0 (fresh [])).host = .command 0x0800 0 :: [] ∧
    InvalidWord 0x0800 := by
  unfold InvalidWord
  decide

theorem witness_invalid_word_unused_bit : (offering 0xA080 0 (fresh [])).host = .command 0xA080 0 :: [] ∧
    InvalidWord 0xA080 := by
  unfold InvalidWord
  decide

theorem witness_valid_word : (offering 0xA07F 0 (fresh [])).busy = false ∧
    (offering 0xA07F 0 (fresh [])).stage = none ∧
    (offering 0xA07F 0 (fresh [])).host = .command 0xA07F 0 :: [] ∧ ¬ InvalidWord 0xA07F := by
  unfold InvalidWord
  decide

theorem witness_reset_state : State.reset = State.reset ∧ State.reset.stage = none ∧ State.reset.host = [] := by decide

theorem witness_block_reset_state : blockReset (ready 2 []) = blockReset (ready 2 []) ∧
    (blockReset (ready 2 [])).stage = none ∧ (blockReset (ready 2 [])).host = [] := by decide

/-- Busy for ever, after an event that never completed. -/
def stuck (host : List HostAction) : State := { ready 2 [] with busy := true, host := host }

theorem witness_block_reset_taken_busy : (stuck [.command 0x4000 0, .blockReset]).busy = true ∧
    .blockReset ∈ (stuck [.command 0x4000 0, .blockReset]).host := by decide

theorem witness_block_reset_taken_idle : ({ ready 2 [] with host := [.blockReset] } : State).busy = false ∧
    ({ ready 2 [] with host := [.blockReset] } : State).stage = none ∧
    ({ ready 2 [] with host := [.blockReset] } : State).host = .blockReset :: [] := by decide

theorem witness_step_runs_command : (offering 0x4000 0 (ready 2 (oks 4))).busy = false ∧
    (offering 0x4000 0 (ready 2 (oks 4))).stage = none ∧
    (offering 0x4000 0 (ready 2 (oks 4))).host = .command 0x4000 0 :: [] ∧
    decode (.command 0x4000 0) = .instr .clear := by decide

theorem witness_step_runs_byte : ({ fresh (oks 4) with stage := some (.lcdIr8, 0x01) } : State).busy = false ∧
    ({ fresh (oks 4) with stage := some (.lcdIr8, 0x01) } : State).stage = some (.lcdIr8, 0x01) ∧
    decode (.byteWord .lcdIr8 0x01) = .instr .lcdClear := by decide

theorem witness_busy_block : (stuck [.command 0x4000 0]).busy = true ∧ .blockReset ∉ (stuck [.command 0x4000 0]).host := by
  decide

theorem witness_idle_block : (ready 2 []).busy = false ∧ (ready 2 []).stage = none ∧ (ready 2 []).offered = none := by
  decide

theorem witness_idle_block_before_reset : ({ ready 2 [] with host := [.blockReset] } : State).busy = false ∧
    ({ ready 2 [] with host := [.blockReset] } : State).stage = none ∧
    ({ ready 2 [] with host := [.blockReset] } : State).offered = none := by decide

theorem witness_unlisted_byte : ({ fresh [] with stage := some (.lcdIr8, 0x03) } : State).busy = false ∧
    ({ fresh [] with stage := some (.lcdIr8, 0x03) } : State).stage = some (.lcdIr8, 0x03) ∧
    decode (.byteWord .lcdIr8 0x03) = .rejected .unnamedBit ∧ (fresh []).stage = none := by decide

theorem reset_inv : State.reset.Inv := by constructor <;> decide

/-- An `INIT 2` offered after reset: a state that meets the invariant and steps to a next state. -/
theorem witness_invariant_kept : (offering 0x0100 0 (fresh (oks 37))).Inv ∧
    ∃ t, step (offering 0x0100 0 (fresh (oks 37))) = .next t ∧ decide (t.fsm = .ready) = true :=
  ⟨by constructor <;> decide, exists_next (by decide)⟩

theorem witness_whole_transactions : (offering 0x1000 0 (fresh (oks 2))).stage = none ∧
    ∃ t, step (offering 0x1000 0 (fresh (oks 2))) = .next t ∧ (!t.busy) = true :=
  ⟨rfl, exists_next (by decide)⟩

theorem witness_ready_has_a_line_count :
    ((offering 0x0000 0 (fresh (oks 37))).fsm = .ready →
      (offering 0x0000 0 (fresh (oks 37))).lines = some 1 ∨ (offering 0x0000 0 (fresh (oks 37))).lines = some 2) ∧
    ∃ t, step (offering 0x0000 0 (fresh (oks 37))) = .next t ∧ decide (t.fsm = .ready) = true :=
  ⟨by decide, exists_next (by decide)⟩

theorem witness_not_ready_mode : (fresh []).fsm ≠ .ready := by decide

theorem witness_not_init : (∀ n, Instr.clear ≠ .init n) ∧ (∀ n, Instr.clear ≠ .printSeq n) ∧
    ∃ t, exec .clear (ready 2 (oks 4)) = .next t :=
  ⟨nofun, nofun, _, rfl⟩

theorem witness_everything_answers : (Instr.printSeq 2).isCommand = true ∧
    ({ ready 2 (oks 5) with payload := [0x48, 0x49] } : State).completes (eventBound (.printSeq 2)) ∧
    (∀ n, Instr.printSeq 2 = .printSeq n → n ≤ ({ ready 2 (oks 5) with payload := [0x48, 0x49] } : State).payload.length) :=
  ⟨rfl, by decide, fun n h => by cases h; decide⟩

theorem witness_everything_answers_init : (Instr.init 2).isCommand = true ∧
    (fresh (oks 37)).completes (eventBound (.init 2)) ∧ (fresh (oks 37)).fsm ≠ .initializing := by decide

theorem witness_hung_command : Instr.getStatus.isCommand = true ∧
    ∃ t, exec .getStatus (ready 1 [.never]) = .next t ∧ decide (t.busy = true ∧ .blockReset ∉ t.host) = true :=
  ⟨rfl, exists_next (by decide)⟩

theorem witness_finished_command : Instr.getStatus.isCommand = true ∧
    ∃ t, exec .getStatus (ready 1 (oks 1)) = .next t ∧ decide (t.busy = false ∧ t.rspResult = 4) = true :=
  ⟨rfl, exists_next (by decide)⟩

theorem witness_finished_init_with_a_step : (Instr.init 1).isCommand = true ∧
    ∃ t, exec (.init 1) (fresh (oks 4 ++ [bad])) = .next t ∧ decide (t.busy = false ∧ t.rspStep ≠ 0) = true :=
  ⟨rfl, exists_next (by decide)⟩

theorem witness_finished_command_with_data : Instr.getIsBusy.isCommand = true ∧
    ∃ t, exec .getIsBusy (ready 1 [.answer .ok (.byte 0xFF)]) = .next t ∧
      decide (t.busy = false ∧ t.rspResult = 0 ∧ okData .getIsBusy t.rspData = true) = true :=
  ⟨rfl, exists_next (by decide)⟩

/-! A run (45_transmit_primitives.md R181): two commands that need no draw, and one that never finishes. -/

/-- After reset, an invalid word and a `CLEAR` offered. -/
def twoOffered : State := { fresh [] with host := [.command 0x4001 0, .command 0x4000 0] }

theorem witness_no_command_accepted : (stuck [.command 0x4000 0]).accepted = none ∧ (fresh []).accepted = none ∧
    ({ fresh [] with host := [.blockReset, .command 0x4000 0] } : State).accepted = none := by decide

theorem witness_command_accepted : twoOffered.accepted = some (0x4001, 0) := by decide

/-- 95_test_vectors.md V8, V5: `INVALID_COMMAND`, then `NOT_READY`. The third step accepts nothing and is not listed. -/
theorem witness_run_of_two_commands : (observe 3 twoOffered).observed =
    [⟨(0x4001, 0), [], some ⟨5, 0x00, 0⟩⟩] ++ [⟨(0x4000, 0), [], some ⟨2, 0x00, 0⟩⟩] ∧
    (observe 3 twoOffered).ended = true := by decide

theorem witness_run_that_does_not_end : (observe 2 (offering 0x1000 0 (fresh [dead]))).observed =
    [] ++ [⟨(0x1000, 0), [.busBegin 0x3E], none⟩] ∧
    (observe 2 (offering 0x1000 0 (fresh [dead]))).ended = false := by decide

theorem witness_run_of_no_command : (observe 2 (fresh [])).observed = [] := by decide

theorem witness_not_ready_command : Instr.clear.isCommand = true ∧ Instr.clear ≠ .isAvailable ∧
    (∀ n, Instr.clear ≠ .init n) ∧ (fresh []).fsm ≠ .ready :=
  ⟨rfl, by decide, nofun, by decide⟩

theorem witness_init_sequence : (2 = 1 ∨ 2 = 2) ∧ (fresh (oks 37)).grouping = .perInstruction ∧
    (fresh (oks 37)).completes 37 ∧ (∀ j, j < 9 → (fresh (oks 37)).statusAt (4 * j + 4) = .ok) := by decide

theorem witness_init_first_failure_at_nine : (1 = 1 ∨ 1 = 2) ∧
    (fresh (oks 36 ++ [bad])).grouping = .perInstruction ∧ 8 < 9 ∧ (fresh (oks 36 ++ [bad])).completes (4 * 8 + 5) ∧
    (∀ j, j < 8 → (fresh (oks 36 ++ [bad])).statusAt (4 * j + 4) = .ok) ∧
    (fresh (oks 36 ++ [bad])).statusAt (4 * 8 + 4) = .busError := by decide

theorem witness_init_first_failure_at_one : (fresh (oks 4 ++ [bad])).grouping = .perInstruction ∧
    (fresh (oks 4 ++ [bad])).completes (4 * 0 + 5) ∧
    (∀ j, j < 0 → (fresh (oks 4 ++ [bad])).statusAt (4 * j + 4) = .ok) ∧
    (fresh (oks 4 ++ [bad])).statusAt (4 * 0 + 4) = .busError := by decide

/-- After block reset with `P_INIT_GROUPING = BATCHED`. -/
def batched (draws : List Draw) : State := { fresh draws with grouping := .batched }

theorem witness_batched_succeeds : (batched (oks 19)).grouping = .batched ∧ (batched (oks 19)).completes 19 ∧
    (batched (oks 19)).statusAt 4 = .ok ∧ (batched (oks 19)).statusAt 8 = .ok ∧
    (batched (oks 19)).statusAt 18 = .ok := by decide

theorem witness_batched_third_fails : (batched (oks 18 ++ [bad])).grouping = .batched ∧
    (batched (oks 18 ++ [bad])).completes 19 ∧ (batched (oks 18 ++ [bad])).statusAt 4 = .ok ∧
    (batched (oks 18 ++ [bad])).statusAt 8 = .ok ∧ (batched (oks 18 ++ [bad])).statusAt 18 = .busError := by decide

theorem witness_batched_second_fails : (batched (oks 8 ++ [bad])).completes 9 ∧
    (batched (oks 8 ++ [bad])).statusAt 4 = .ok ∧ (batched (oks 8 ++ [bad])).statusAt 8 = .busError := by decide

theorem witness_batched_first_fails : (batched (oks 4 ++ [bad])).completes 5 ∧
    (batched (oks 4 ++ [bad])).statusAt 4 = .busError := by decide

theorem witness_init_ends_hung : ∃ t, exec (.init 2) (fresh (oks 1 ++ [dead])) = .next t ∧ t.busy = true :=
  exists_next (by decide)

theorem witness_init_hangs_at_bus_configure : (fresh [dead]).drawAt 0 = .never := by decide

theorem witness_init_hangs_at_the_last_event : (fresh (oks 36 ++ [dead])).grouping = .perInstruction ∧ 8 < 9 ∧ 3 < 4 ∧
    (fresh (oks 36 ++ [dead])).completes (4 * 8 + 3 + 1) ∧
    (∀ j, j < 8 → (fresh (oks 36 ++ [dead])).statusAt (4 * j + 4) = .ok) ∧
    (fresh (oks 36 ++ [dead])).drawAt (4 * 8 + 3 + 1) = .never := by decide

theorem witness_batched_init_hangs_in_the_second_transaction : (batched (oks 5 ++ [dead])).grouping = .batched ∧
    1 < 2 ∧ 0 < 4 ∧ (batched (oks 5 ++ [dead])).completes (4 * 1 + 0 + 1) ∧
    (∀ j, j < 1 → (batched (oks 5 ++ [dead])).statusAt (4 * j + 4) = .ok) ∧
    (batched (oks 5 ++ [dead])).drawAt (4 * 1 + 0 + 1) = .never := by decide

theorem witness_batched_init_hangs_at_the_last_event : (batched (oks 18 ++ [dead])).grouping = .batched ∧ 9 < 10 ∧
    (batched (oks 18 ++ [dead])).completes (9 + 9) ∧ (batched (oks 18 ++ [dead])).statusAt 4 = .ok ∧
    (batched (oks 18 ++ [dead])).statusAt 8 = .ok ∧ (batched (oks 18 ++ [dead])).drawAt (9 + 9) = .never := by decide

theorem witness_init_emits_the_gap :
    ∃ t, exec (.init 2) (fresh (oks 37)) = .next t ∧ decide (.wait .fsGap ∈ t.trace) = true :=
  exists_next (by decide)

theorem witness_successful_init :
    ∃ t, exec (.init 2) (fresh (oks 37)) = .next t ∧ decide (t.busy = false ∧ t.rspResult = 0) = true :=
  exists_next (by decide)

theorem witness_successful_batched_init :
    ∃ t, exec (.init 2) (batched (oks 19)) = .next t ∧ decide (t.busy = false ∧ t.rspResult = 0) = true :=
  exists_next (by decide)

theorem witness_probe_answers : (fresh (oks 2)).completes 2 ∧ (fresh [.answer .ok .failure, bad]).completes 2 := by decide

theorem witness_print_byte : (ready 2 (oks 4)).fsm = .ready ∧ (ready 2 (oks 4)).completes 4 := by decide

theorem witness_print_seq : ({ ready 2 (oks 5) with payload := [0x48, 0x49] } : State).fsm = .ready ∧
    2 ≤ ({ ready 2 (oks 5) with payload := [0x48, 0x49] } : State).payload.length ∧
    ({ ready 2 (oks 5) with payload := [0x48, 0x49] } : State).completes (2 + 3) := by decide

theorem witness_print_seq_of_nothing : (ready 2 (oks 3)).fsm = .ready ∧ 0 ≤ (ready 2 (oks 3)).payload.length ∧
    (ready 2 (oks 3)).completes (0 + 3) := by decide

theorem witness_short_payload : ({ ready 2 (oks 3) with payload := [0x48] } : State).fsm = .ready ∧
    ({ ready 2 (oks 3) with payload := [0x48] } : State).payload.length < 2 ∧
    ({ ready 2 (oks 3) with payload := [0x48] } : State).completes
      (({ ready 2 (oks 3) with payload := [0x48] } : State).payload.length + 2) := by decide

theorem witness_data_write : (∃ b, Instr.printByte 0x48 = .printByte b) ∧
    ∃ t, exec (.printByte 0x48) (ready 2 (oks 4)) = .next t :=
  ⟨⟨_, rfl⟩, _, rfl⟩

theorem witness_instruction_command_ready : (Instr.setDataAddressCr 0xC0 1).wellFormed = true ∧
    sentOpcode (.setDataAddressCr 0xC0 1) = some 0x80 ∧
    (∀ col, Instr.setDataAddressCr 0xC0 1 = .setDataAddressCr col 1 → (ready 2 (oks 4)).lines = some 2) ∧
    (ready 2 (oks 4)).fsm = .ready ∧ (ready 2 (oks 4)).completes 4 :=
  ⟨rfl, by decide, fun _ _ => rfl, rfl, by decide⟩

theorem witness_instruction_command_not_ready : Instr.home.wellFormed = true ∧ sentOpcode .home = some 0x02 ∧
    (∀ col, Instr.home = .setDataAddressCr col 1 → (fresh []).lines = some 2) ∧ (fresh []).fsm ≠ .ready :=
  ⟨rfl, rfl, nofun, by decide⟩

theorem witness_instruction_command_hangs_first : sentOpcode .home = some 0x02 ∧
    (∀ col, Instr.home = .setDataAddressCr col 1 → (ready 1 [.never]).lines = some 2) ∧
    (ready 1 [.never]).fsm = .ready ∧ 0 < 4 ∧ (ready 1 [.never]).completes 0 ∧ (ready 1 [.never]).drawAt 0 = .never :=
  ⟨rfl, nofun, rfl, by decide, by decide, by decide⟩

theorem witness_instruction_command_hangs_last : sentOpcode .home = some 0x02 ∧
    (∀ col, Instr.home = .setDataAddressCr col 1 → (ready 1 (oks 3 ++ [dead])).lines = some 2) ∧
    (ready 1 (oks 3 ++ [dead])).fsm = .ready ∧ 3 < 4 ∧ (ready 1 (oks 3 ++ [dead])).completes 3 ∧
    (ready 1 (oks 3 ++ [dead])).drawAt 3 = .never :=
  ⟨rfl, nofun, rfl, by decide, by decide, by decide⟩

theorem witness_row_one : (ready 1 []).fsm = .ready ∧ (ready 1 []).lines ≠ some 2 := by decide

theorem witness_status_read : (statusData .getAddress).isSome = true ∧
    (ready 1 [.answer .ok (.byte 0xFF)]).fsm = .ready ∧ (ready 1 [.answer .ok (.byte 0xFF)]).completes 1 ∧
    (ready 1 [.answer .ok (.byte 0xFF)]).readAt 0 = .byte 0xFF := by decide

theorem witness_status_read_fails : (statusData .getStatus).isSome = true ∧ (ready 1 (oks 1)).fsm = .ready ∧
    (ready 1 (oks 1)).completes 1 ∧ (ready 1 (oks 1)).readAt 0 = .failure := by decide

theorem witness_instruction_byte : wordOpcode (.lcdSetDdramAddress 0x7F) = some 0xFF ∧ (fresh (oks 4)).completes 4 := by
  decide

theorem witness_selector_and_data_bytes : (fresh (oks 3)).completes 3 ∧ (fresh (oks 4)).completes 4 := by decide

theorem witness_status_byte : (fresh (oks 1)).completes 1 := by decide

end Sys2Proof.Tests
end

/-! Proofs: `READY` and the line count (10_state.md R25).

The first part says what the meanings do with the configuration: the bytes and every command but `INIT` keep it, and an
`INIT` that ends in `READY` has written its operand to the line count. The second part says that the block's operations
do not read the line count: run on two states that differ in nothing else, they end alike. -/

namespace Sys2Proof.Machine

/-! ## The configuration after an instruction -/

/-- `NOT_READY`, `IGNORED`, the end of a transaction, a hang: all of them leave the configuration alone. -/
theorem runCommand_instr_sameConfiguration {op : Byte} {s t : State} (h : runCommand (instr op) s = .next t) :
    SameConfiguration s t := by
  rcases runCommand_instr op s t h with ⟨_, rfl⟩ | ⟨_, _, rfl⟩ | ⟨_, _, _, _, _, rfl⟩ <;> exact ⟨rfl, rfl, rfl⟩

theorem runCommand_statusRead_sameConfiguration {data : Byte → Byte} {s t : State}
    (h : runCommand (statusRead data) s = .next t) : SameConfiguration s t := by
  rcases runCommand_statusRead data s t h with ⟨_, rfl⟩ | ⟨_, _, _, _, rfl⟩ | ⟨_, _, _, rfl⟩ | ⟨_, _, rfl⟩ <;>
    exact ⟨rfl, rfl, rfl⟩

theorem execIsAvailable_sameConfiguration {s t : State} (h : execIsAvailable s = .next t) : SameConfiguration s t := by
  rcases execIsAvailable_cases s t h with ⟨_, rfl⟩ | ⟨_, rfl⟩ | ⟨_, _, rfl⟩ <;> exact ⟨rfl, rfl, rfl⟩

theorem execPrintByte_sameConfiguration {b : Byte} {s t : State} (h : execPrintByte b s = .next t) :
    SameConfiguration s t := by
  rcases execPrintByte_cases b s t h with ⟨_, rfl⟩ | ⟨_, _, rfl⟩ | ⟨_, _, _, _, _, rfl⟩ <;> exact ⟨rfl, rfl, rfl⟩

theorem execPrintSeq_sameConfiguration {n : Nat} {s t : State} (h : execPrintSeq n s = .next t) :
    SameConfiguration s t := by
  rcases execPrintSeq_cases n s t h with
    ⟨_, rfl⟩ | ⟨_, _, _, rfl⟩ | ⟨_, _, _, _, _, _, _, rfl⟩ | ⟨_, _, _, _, _, _, _, rfl⟩ <;> exact ⟨rfl, rfl, rfl⟩

theorem execSetDataAddressCr_sameConfiguration {col : Byte} {row : Nat} {s t : State}
    (h : execSetDataAddressCr col row s = .next t) : SameConfiguration s t := by
  rcases execSetDataAddressCr_cases col row s with ⟨_, he⟩ | ⟨_, _, he⟩ | ⟨_, _, he⟩
  · cases he.symm.trans h
    exact ⟨rfl, rfl, rfl⟩
  · cases he.symm.trans h
    exact ⟨rfl, rfl, rfl⟩
  · exact runCommand_instr_sameConfiguration (he.symm.trans h)

theorem runPrimitive_tx_sameConfiguration {sel : Byte} {p : List Byte} {s t : State}
    (h : runPrimitive (tx sel p) s = .next t) : SameConfiguration s t := by
  cases h
  rcases tx_cases sel p s with ⟨_, he⟩ | ⟨_, _, _, _, he⟩ <;> rw [he] <;> exact ⟨rfl, rfl, rfl⟩

theorem runPrimitive_writeInstruction_sameConfiguration {op : Byte} {s t : State}
    (h : runPrimitive (writeInstruction op) s = .next t) : SameConfiguration s t := by
  cases h
  rcases writeInstruction_cases op s with ⟨_, he⟩ | ⟨_, _, _, _, he⟩ <;> rw [he] <;> exact ⟨rfl, rfl, rfl⟩

theorem runPrimitive_busRequestAnswered_sameConfiguration {a : Addr7} {v : Byte} {s t : State}
    (h : runPrimitive (busRequestAnswered a v) s = .next t) : SameConfiguration s t := by
  cases h
  by_cases h0 : s.drawAt 0 = .never
  · rw [busRequestAnswered_hung h0]
    exact ⟨rfl, rfl, rfl⟩
  · rw [busRequestAnswered_done h0]
    exact ⟨rfl, rfl, rfl⟩

/-- Mode, line count and sequencer step are written by `INIT` alone. -/
theorem exec_sameConfiguration {i : Instr} {s t : State} (hi : ∀ n, i ≠ .init n) (h : exec i s = .next t) :
    SameConfiguration s t := by
  cases i with
  | init n => exact absurd rfl (hi n)
  | isAvailable => exact execIsAvailable_sameConfiguration h
  | printByte b => exact execPrintByte_sameConfiguration h
  | printSeq n => exact execPrintSeq_sameConfiguration h
  | setDataAddressCr col row => exact execSetDataAddressCr_sameConfiguration h
  | clear | home | setEntryMode | setOnOff | setScreenShift | setCursorShift | setDataAddress =>
    exact runCommand_instr_sameConfiguration h
  | getStatus | getIsBusy | getAddress => exact runCommand_statusRead_sameConfiguration h
  | lcdClear | lcdReturnHome | lcdEntryModeSet | lcdDisplayControl | lcdCursorDisplayShift | lcdFunctionSet
  | lcdSetCgramAddress | lcdSetDdramAddress | extOscFrequency | extContrastLow | extPowerIconContrastHigh
  | extFollowerControl => exact runPrimitive_writeInstruction_sameConfiguration h
  | selectorInstruction | selectorData | dataByte => exact runPrimitive_tx_sameConfiguration h
  | statusByte => exact runPrimitive_busRequestAnswered_sameConfiguration h

/-- An `INIT` that ends in `READY` has succeeded, and so has stored its operand (40_init_sequencer.md R106). -/
theorem execInit_lines_of_ready {n : Nat} {s t : State} (h : execInit n s = .next t) (hr : t.fsm = .ready) :
    t.lines = some n := by
  cases hg : s.grouping with
  | perInstruction =>
    rcases execInit_perInstruction_cases n s t hg h with
      ⟨_, rfl⟩ | ⟨_, _, rfl⟩ | ⟨_, _, _, _, _, _, rfl⟩ | ⟨_, _, _, _, _, _, _, _, rfl⟩
    rotate_left
    · rfl
    all_goals cases hr
  | batched =>
    rcases execInit_batched_cases n s t hg h with
      ⟨_, rfl⟩ | ⟨_, _, _, _, rfl⟩ | ⟨_, _, rfl⟩ | ⟨_, _, _, _, _, rfl⟩ | ⟨_, _, _, rfl⟩ |
      ⟨_, _, _, _, _, _, rfl⟩ | ⟨_, _, _, _, rfl⟩ | ⟨_, _, _, _, rfl⟩
    rotate_left 7
    · rfl
    all_goals cases hr

/-! ## What the decoder answers for `INIT` -/

/-- A byte decodes to no command. -/
theorem not_isCommand_of_decode_byteWord {f : ByteFormat} {b : Byte} {i : Instr}
    (h : decode (.byteWord f b) = .instr i) : i.isCommand = false := by
  simp only [decode, decodeByte, decodeIr8, decodeIr8Ext, decodeSelector] at h
  repeat' split at h
  all_goals cases h <;> rfl

/-- The operand of a decoded `INIT` is `1 + F[0]` (30_encoding.md R87). -/
theorem lineCount_of_decode_init {c : CodeWord} {n : Nat} (h : decode c = .instr (.init n)) : n = 1 ∨ n = 2 := by
  cases c with
  | byteWord f b => cases not_isCommand_of_decode_byteWord h
  | command w len =>
    have hn : n = 1 + (fBit w 0).toNat := by
      simp only [decode, decodeCommand, commandOf] at h
      repeat' split at h
      all_goals cases h
      rfl
    have := (fBit w 0).toNat_lt
    omega

/-! ## `READY` has a line count -/

/-- 10_state.md R25, the invariant. -/
def State.ReadyHasLines (s : State) : Prop := s.fsm = .ready → s.lines = some 1 ∨ s.lines = some 2

theorem SameConfiguration.readyHasLines {s t : State} (h : SameConfiguration s t) (hs : s.ReadyHasLines) :
    t.ReadyHasLines := by
  obtain ⟨hfsm, hlines, _⟩ := h
  unfold State.ReadyHasLines
  rwa [hfsm, hlines]

/-- An instruction that was decoded keeps the invariant: `INIT` because its operand is 1 or 2, every other because it
keeps the configuration. -/
theorem exec_keeps_readyHasLines {c : CodeWord} {i : Instr} {s t : State} (hd : decode c = .instr i)
    (hs : s.ReadyHasLines) (h : exec i s = .next t) : t.ReadyHasLines := by
  by_cases hinit : ∃ n, i = .init n
  · obtain ⟨n, rfl⟩ := hinit
    intro hr
    rw [execInit_lines_of_ready h hr]
    simpa using lineCount_of_decode_init hd
  · exact (exec_sameConfiguration (fun n hn => hinit ⟨n, hn⟩) h).readyHasLines hs

theorem blockReset_readyHasLines (s : State) : (blockReset s).ReadyHasLines := nofun

theorem step_keeps_readyHasLines {s t : State} (hs : s.ReadyHasLines) (h : step s = .next t) : t.ReadyHasLines := by
  rcases step_cases s with ⟨_, _, he⟩ | ⟨_, _, he⟩ | ⟨_, _, _, _, _, hd, he⟩ | ⟨_, _, _, _, _, _, he⟩ |
    ⟨_, _, _, he⟩ | ⟨_, _, _, _, he⟩ | ⟨_, _, _, _, rest, _, _, hd, he⟩ | ⟨_, _, _, _, _, _, _, _, he⟩ <;> rw [he] at h
  · cases h; exact blockReset_readyHasLines _
  · cases h; exact hs
  · exact exec_keeps_readyHasLines (s := s.setStage none) hd hs h
  · cases h
  · cases h; exact hs
  · cases h; exact blockReset_readyHasLines _
  · exact exec_keeps_readyHasLines (s := s.setHost rest) hd hs h
  · cases h; exact hs

/-! ## Two states that differ in the line count alone -/

/-- `u` is `s` but for the line count. -/
def State.EqButLines (s u : State) : Prop := ∃ v, u = s.setLines v

theorem State.EqButLines.restore {s u : State} (h : s.EqButLines u) : { u with lines := s.lines } = s := by
  obtain ⟨v, rfl⟩ := h
  rfl

/-- Two pieces of a command end in the same way, in states equal but for the line count. -/
inductive Run.EqButLines {α : Type} : Run α → Run α → Prop
  | done (a : α) {s u : State} (h : s.EqButLines u) : EqButLines (.done a s) (.done a u)
  | hung {s u : State} (h : s.EqButLines u) : EqButLines (.hung s) (.hung u)

/-- Two meanings answer next states equal but for the line count. -/
def NextEqButLines (o o' : Host.Outcome State Fault Refusal) : Prop :=
  ∃ t u, o = .next t ∧ o' = .next u ∧ t.EqButLines u

/-- The operation does not read the line count: from states equal but for it, it ends in the same way. -/
def IgnoresLines {α : Type} (op : State → Run α) : Prop :=
  ∀ ⦃s u : State⦄, s.EqButLines u → (op s).EqButLines (op u)

section Sequencing

variable {α β : Type}

theorem Run.EqButLines.state {r r' : Run α} (h : r.EqButLines r') : r.state.EqButLines r'.state := by
  cases h with
  | done _ h => exact h
  | hung h => exact h

theorem Run.EqButLines.primitiveState {r r' : Run α} (h : r.EqButLines r') :
    (primitiveState r).EqButLines (primitiveState r') := by
  cases h with
  | done _ h => exact h
  | hung h =>
    obtain ⟨v, rfl⟩ := h
    exact ⟨v, rfl⟩

theorem Run.EqButLines.bind {r r' : Run α} {next : α → State → Run β} (h : r.EqButLines r')
    (hnext : ∀ a, IgnoresLines (next a)) : (r.bind next).EqButLines (r'.bind next) := by
  cases h with
  | done a h => exact hnext a h
  | hung h => exact .hung h

theorem IgnoresLines.bind {op : State → Run α} {next : α → State → Run β} (hop : IgnoresLines op)
    (hnext : ∀ a, IgnoresLines (next a)) : IgnoresLines fun s => (op s).bind next :=
  fun _ _ h => (hop h).bind hnext

/-- An update of the state before the operation, one that commutes with a change of the line count. -/
theorem IgnoresLines.after {op : State → Run α} (hop : IgnoresLines op) {f : State → State}
    (hf : ∀ s v, f (s.setLines v) = (f s).setLines v) : IgnoresLines fun s => op (f s) := by
  rintro s _ ⟨v, rfl⟩
  exact hop ⟨v, hf s v⟩

/-- Returning a value after such an update. -/
theorem ignoresLines_done (a : α) {f : State → State} (hf : ∀ s v, f (s.setLines v) = (f s).setLines v) :
    IgnoresLines fun s => Run.done a (f s) := by
  rintro s _ ⟨v, rfl⟩
  exact .done a ⟨v, hf s v⟩

end Sequencing

/-! ## No operation reads the line count -/

theorem emit_ignoresLines (e : Event) : IgnoresLines (emit e) := by
  rintro s _ ⟨v, rfl⟩
  by_cases h0 : s.drawAt 0 = .never
  · rw [emit_hung h0, emit_hung (s := s.setLines v) h0]
    exact .hung ⟨v, rfl⟩
  · rw [emit_done h0, emit_done (s := s.setLines v) h0]
    exact .done () ⟨v, rfl⟩

theorem busEnd_ignoresLines : IgnoresLines busEnd := by
  rintro s _ ⟨v, rfl⟩
  by_cases h0 : s.drawAt 0 = .never
  · rw [busEnd_hung h0, busEnd_hung (s := s.setLines v) h0]
    exact .hung ⟨v, rfl⟩
  · rw [busEnd_done h0, busEnd_done (s := s.setLines v) h0]
    exact .done (s.statusAt 0) ⟨v, rfl⟩

theorem busRequestAnswered_ignoresLines (a : Addr7) (b : Byte) : IgnoresLines (busRequestAnswered a b) := by
  rintro s _ ⟨v, rfl⟩
  by_cases h0 : s.drawAt 0 = .never
  · rw [busRequestAnswered_hung h0, busRequestAnswered_hung (s := s.setLines v) h0]
    exact .hung ⟨v, rfl⟩
  · rw [busRequestAnswered_done h0, busRequestAnswered_done (s := s.setLines v) h0]
    exact .done () ⟨v, rfl⟩

theorem emitAll_ignoresLines (es : List Event) : IgnoresLines (emitAll es) := by
  induction es with
  | nil => exact ignoresLines_done () fun _ _ => rfl
  | cons e es ih => exact (emit_ignoresLines e).bind fun _ => ih

theorem tx_ignoresLines (sel : Byte) (p : List Byte) : IgnoresLines (tx sel p) :=
  (emitAll_ignoresLines _).bind fun _ => busEnd_ignoresLines

theorem writeInstruction_ignoresLines (op : Byte) : IgnoresLines (writeInstruction op) :=
  (tx_ignoresLines selIR [op]).bind fun status => ignoresLines_done status fun _ _ => rfl

theorem probe_ignoresLines : IgnoresLines probe :=
  (emit_ignoresLines _).bind fun _ => busEnd_ignoresLines

theorem finish_ignoresLines (r : Result) (d : Byte) (k : BitVec 4) : IgnoresLines (finish r d k) :=
  ignoresLines_done () fun _ _ => rfl

/-! ## `INIT` does not read the line count; where it ends it overwrites it -/

theorem initFailed_ignoresLines (k : BitVec 4) : IgnoresLines (initFailed k) := by
  rintro s _ ⟨v, rfl⟩
  exact .done () ⟨none, rfl⟩

theorem initDone_ignoresLines (lineCount : Nat) : IgnoresLines (initDone lineCount) := by
  rintro s _ ⟨v, rfl⟩
  exact .done () ⟨some lineCount, rfl⟩

theorem initSteps_ignoresLines (lineCount : Nat) (ops : List Byte) (k : BitVec 4) :
    IgnoresLines (initSteps lineCount ops k) := by
  induction ops generalizing k with
  | nil => exact (initDone_ignoresLines lineCount).after (f := waitFor .initTail) fun _ _ => rfl
  | cons op ops ih =>
    refine ((writeInstruction_ignoresLines op).after (f := (·.setSeq k)) fun _ _ => rfl).bind fun status => ?_
    cases status with
    | busError => exact initFailed_ignoresLines k
    | ok =>
      refine (ih (k + 1)).after (f := fun s => if k = 1 then waitFor .fsGap s else s) fun s v => ?_
      by_cases hk : k = 1
      · simp only [hk, if_true]
        rfl
      · simp only [hk, if_false]

theorem initBatched_ignoresLines (lineCount : Nat) : IgnoresLines (initBatched lineCount) := by
  refine ((writeInstruction_ignoresLines 0x38).after (f := (·.setSeq 1)) fun _ _ => rfl).bind fun first => ?_
  cases first with
  | busError => exact initFailed_ignoresLines 1
  | ok =>
    refine ((writeInstruction_ignoresLines 0x39).after (f := fun s => (waitFor .fsGap s).setSeq 2)
      fun _ _ => rfl).bind fun second => ?_
    cases second with
    | busError => exact initFailed_ignoresLines 2
    | ok =>
      refine ((tx_ignoresLines selIR initBatch).after (f := (·.setSeq 3)) fun _ _ => rfl).bind fun third => ?_
      cases third with
      | busError => exact (initFailed_ignoresLines 3).after (f := waitFor .initTail) fun _ _ => rfl
      | ok => exact (initDone_ignoresLines lineCount).after (f := waitFor .initTail) fun _ _ => rfl

theorem initCommand_ignoresLines (lineCount : Nat) : IgnoresLines (initCommand lineCount) := by
  refine ((emit_ignoresLines .busConfigure).after (f := (·.setFsm .initializing)) fun _ _ => rfl).bind fun _ => ?_
  rintro s _ ⟨v, rfl⟩
  simp only [State.setLines_grouping]
  cases s.grouping with
  | perInstruction => exact initSteps_ignoresLines lineCount initSeq 1 ⟨v, rfl⟩
  | batched => exact initBatched_ignoresLines lineCount ⟨v, rfl⟩

/-! ## Outside `READY` no instruction reads the line count -/

theorem runCommand_nextEqButLines {body : State → Run Unit} (hbody : IgnoresLines body) {s u : State}
    (h : s.EqButLines u) : NextEqButLines (runCommand body s) (runCommand body u) :=
  ⟨_, _, rfl, rfl, (hbody.after (f := accept) (fun _ _ => rfl) h).state⟩

theorem runPrimitive_nextEqButLines {α : Type} {primitive : State → Run α} (hp : IgnoresLines primitive) {s u : State}
    (h : s.EqButLines u) : NextEqButLines (runPrimitive primitive s) (runPrimitive primitive u) :=
  ⟨_, _, rfl, rfl, (hp h).primitiveState⟩

/-- A gated command outside `READY` does nothing but answer (45_transmit_primitives.md R174). -/
theorem runCommand_gated_not_ready {body : State → Run Unit} {s : State} (hr : s.fsm ≠ .ready) :
    runCommand (gated body) s = .next (s.responded .notReady 0x00 0) := by
  have hr' : (accept s).fsm ≠ .ready := hr
  rw [runCommand, gated_not_ready hr']
  rfl

/-- The gate keeps a command's body, whatever it reads, from being run. -/
theorem runCommand_gated_nextEqButLines {body : State → Run Unit} {s u : State} (hr : s.fsm ≠ .ready)
    (h : s.EqButLines u) : NextEqButLines (runCommand (gated body) s) (runCommand (gated body) u) := by
  obtain ⟨v, rfl⟩ := h
  exact ⟨_, _, runCommand_gated_not_ready hr, runCommand_gated_not_ready (s := s.setLines v) hr, v, rfl⟩

theorem execIsAvailable_nextEqButLines {s u : State} (h : s.EqButLines u) :
    NextEqButLines (execIsAvailable s) (execIsAvailable u) := by
  refine runCommand_nextEqButLines (probe_ignoresLines.bind fun status => ?_) h
  cases status with
  | ok => exact finish_ignoresLines .ok 0x01 0
  | busError => exact finish_ignoresLines .ok 0x00 0

theorem exec_nextEqButLines (i : Instr) {s u : State} (hr : s.fsm ≠ .ready) (h : s.EqButLines u) :
    NextEqButLines (exec i s) (exec i u) := by
  cases i with
  | init n => exact runCommand_nextEqButLines (initCommand_ignoresLines n) h
  | isAvailable => exact execIsAvailable_nextEqButLines h
  | printByte | printSeq | clear | home | setEntryMode | setOnOff | setScreenShift | setCursorShift | setDataAddress
  | setDataAddressCr | getStatus | getIsBusy | getAddress => exact runCommand_gated_nextEqButLines hr h
  | lcdClear | lcdReturnHome | lcdEntryModeSet | lcdDisplayControl | lcdCursorDisplayShift | lcdFunctionSet
  | lcdSetCgramAddress | lcdSetDdramAddress | extOscFrequency | extContrastLow | extPowerIconContrastHigh
  | extFollowerControl => exact runPrimitive_nextEqButLines (writeInstruction_ignoresLines _) h
  | selectorInstruction | selectorData | dataByte => exact runPrimitive_nextEqButLines (tx_ignoresLines _ _) h
  | statusByte => exact runPrimitive_nextEqButLines (busRequestAnswered_ignoresLines _ _) h

/-- Settles O18: reset by its fields, the invariant by the cases of a step, the last clause by the relation of two states
equal but for the line count, which every operation run outside `READY` keeps. -/
theorem readyHasALineCountAndNoOtherModeReadsIt : Obligations.ReadyHasALineCountAndNoOtherModeReadsIt := by
  unfold Obligations.ReadyHasALineCountAndNoOtherModeReadsIt
  refine ⟨nofun, fun _ _ hs h => step_keeps_readyHasLines hs h, fun i s v hr => ?_⟩
  obtain ⟨t, u, ht, hu, heq⟩ := exec_nextEqButLines i hr ⟨v, rfl⟩
  exact ⟨t, u, ht, hu, heq.restore⟩

end Sys2Proof.Machine

/-! Proofs: which command words the decoder rejects, and a payload that stops short (30_encoding.md R88, R89).

The decoder tests a command word by shifts and masks; R88 speaks of the value of `OP` and of the positions of bits. The
first part shows that the two agree, test by test. -/

namespace Sys2Proof.Machine

/-! ## The fields of a command word -/

theorem opField_toNat (w : Word) : (opField w).toNat = w.toNat / 4096 := by
  have hw := w.isLt
  simp only [opField, BitVec.extractLsb'_toNat, Nat.shiftRight_eq_div_pow]
  omega

/-- `0x07FF` selects `F[2:0]` and `A[7:0]`. -/
theorem getLsbD_operandMask (k : Nat) : (0x07FF : Word).getLsbD k = decide (k < 11) := by
  by_cases hk : k < 16
  · have bits : ∀ j : Fin 16, (0x07FF : Word).getLsbD j = decide (j.val < 11) := by decide
    exact bits ⟨k, hk⟩
  · rw [BitVec.getLsbD_of_ge _ _ (by omega), eq_comm, decide_eq_false_iff_not]
    omega

/-- The mask and the list of positions are the same column of 30_encoding.md R87. -/
theorem getLsbD_usedBits {op k : Nat} (hop : op < 16) (hk : k < 11) :
    (usedBits op).getLsbD k = true ↔ k ∈ usedPositions op := by
  have table : ∀ (o : Fin 16) (j : Fin 11), (usedBits o).getLsbD j = true ↔ j.val ∈ usedPositions o := by decide
  exact table ⟨op, hop⟩ ⟨k, hk⟩

theorem ne_zero_iff_exists_getLsbD {n : Nat} (x : BitVec n) : x ≠ 0 ↔ ∃ k, x.getLsbD k = true := by
  rw [← not_iff_not, not_not, not_exists]
  constructor
  · rintro rfl k
    simp
  · intro h
    exact BitVec.eq_of_getLsbD_eq fun k _ => by simpa using h k

/-- The mask test of the decoder finds exactly the operand bits outside the used positions. -/
theorem unusedOperandBit_iff (w : Word) {op : Nat} (hop : op < 16) :
    w &&& 0x07FF &&& ~~~(usedBits op) ≠ 0 ↔ ∃ k, k < 11 ∧ w.getLsbD k = true ∧ k ∉ usedPositions op := by
  rw [ne_zero_iff_exists_getLsbD]
  refine exists_congr fun k => ?_
  simp only [BitVec.getLsbD_and, BitVec.getLsbD_not, getLsbD_operandMask]
  by_cases hk : k < 11
  · have hk16 : k < 16 := by omega
    simp [hk, hk16, ← getLsbD_usedBits hop hk]
  · simp [hk]

/-! ## The rejected command words -/

theorem commandOf_rejected_iff (w len : Word) : (∃ r, commandOf w len = .rejected r) ↔ (opField w).toNat = 0xF := by
  have hop := (opField w).isLt
  unfold commandOf
  generalize (opField w).toNat = op at hop ⊢
  interval_cases op <;> simp

/-- The decoder rejects a command word for one of the three conditions of 30_encoding.md R88, and for no other. -/
theorem decode_command_rejected_iff (w len : Word) :
    (∃ r, decode (.command w len) = .rejected r) ↔ InvalidWord w := by
  unfold InvalidWord
  rw [← opField_toNat, ← commandOf_rejected_iff w len, ← unusedOperandBit_iff w (opField w).isLt]
  simp only [decode, decodeCommand]
  split_ifs with hreserved hoperand
  · exact iff_of_true ⟨_, rfl⟩ (.inr (.inl hreserved))
  · exact iff_of_true ⟨_, rfl⟩ (.inr (.inr hoperand))
  · simp only [hreserved, hoperand, or_false, Bool.false_eq_true]

/-- Settles O5: the step that takes up a word follows the decoder, and the decoder rejects the invalid words alone. -/
theorem invalidWordFinishesInvalidCommand : Obligations.InvalidWordFinishesInvalidCommand := by
  unfold Obligations.InvalidWordFinishesInvalidCommand
  intro s w len rest hbusy hstage hhost
  have haccepted : s.accepted = some (w, len) := (accepted_eq_some s w len).2 ⟨hbusy, hstage, rest, hhost⟩
  obtain ⟨rest', _, _, hhost', hstep⟩ := step_of_accepted haccepted
  cases hhost.symm.trans hhost'
  rw [← decode_command_rejected_iff w len]
  rcases hstep with ⟨i, hcommand, hdecode, hstep⟩ | ⟨r, hdecode, hstep⟩
  · exact ⟨fun ⟨_, hrejected⟩ => absurd (hdecode.symm.trans hrejected) nofun, fun _ => ⟨i, hcommand, hdecode, hstep⟩⟩
  · exact ⟨fun _ => hstep, fun hvalid => absurd ⟨r, hdecode⟩ hvalid⟩

/-! ## The payload of `PRINT_SEQ` -/

/-- A busy block with no block reset offered stays as it is (70_reset_and_hazards.md R242). -/
theorem step_of_busy {s : State} (hbusy : s.busy = true) (hreset : .blockReset ∉ s.host) : step s = .next s := by
  rcases step_cases s with ⟨_, hoffered, _⟩ | ⟨_, _, hstep⟩ | hidle
  · exact absurd hoffered hreset
  · exact hstep
  · simp [hbusy] at hidle

/-- With the payload there and every event answered, the one transaction ends and `n` bytes are taken. -/
theorem execPrintSeq_done {n : Nat} {s : State} (hready : s.fsm = .ready) (hn : n ≤ s.payload.length)
    (hc : s.completes (n + 3)) :
    execPrintSeq n s = .next (((s.progress (n + 3) (txEvents selDR (s.payload.take n) (s.statusAt (n + 2)))).setPayload
      (s.payload.drop n)).responded (statusResult (s.statusAt (n + 2))) 0x00 0) := by
  obtain ⟨t, ht⟩ := exec_next (.printSeq n) s
  refine ht.trans (congrArg _ ?_)
  rcases execPrintSeq_cases n s t ht with ⟨hr, _⟩ | ⟨_, _, _, rfl⟩ | ⟨_, _, h, _, hl, _, hd, _⟩ | ⟨_, hshort, _⟩
  · exact absurd hready hr
  · rfl
  · exact absurd hd (hc h hl)
  · omega

/-- With too few bytes there the command hangs (30_encoding.md R89). -/
theorem execPrintSeq_short {n : Nat} {s : State} (hready : s.fsm = .ready) (hn : s.payload.length < n) :
    ∃ u : State, execPrintSeq n s = .next u.hungUp := by
  obtain ⟨t, ht⟩ := exec_next (.printSeq n) s
  rcases execPrintSeq_cases n s t ht with ⟨hr, _⟩ | ⟨_, hle, _⟩ | ⟨_, hle, _⟩ | ⟨_, _, _, _, _, _, _, rfl⟩
  · exact absurd hready hr
  · omega
  · omega
  · exact ⟨_, ht⟩

/-- Settles O38: the whole transaction where the bytes are there, else a hung block, which no step of its own ends. -/
theorem shortPayloadLeavesTheBlockWaiting : Obligations.ShortPayloadLeavesTheBlockWaiting := by
  unfold Obligations.ShortPayloadLeavesTheBlockWaiting
  constructor
  · intro n s hready hn hc
    exact ⟨_, _, execPrintSeq_done hready hn hc, rfl, rfl⟩
  · intro n s hready hn
    obtain ⟨u, hu⟩ := execPrintSeq_short hready hn
    exact ⟨u.hungUp, hu, rfl, rfl, rfl, step_of_busy rfl⟩

end Sys2Proof.Machine

/-! Proofs: what `INIT` emits (40_init_sequencer.md R102, R103, R104, R107).

The first part reads off where `INIT` ends when its events complete, in either grouping. The second part gives the shape
of what it emits under every behaviour of the transport: `BusConfigure`, then the first function-set write, and past the
gap neither of the two again. -/

namespace Sys2Proof.Machine

/-! ## The ends of `INIT` -/

/-- The entries of the whole `PER_INSTRUCTION` sequence (40_init_sequencer.md R102). -/
theorem initOkEvents_initSeq :
    initOkEvents initSeq 1 ++ [.wait .initTail] = List.flatten
      [settledTx 0x38, [.wait .fsGap], settledTx 0x39, settledTx 0x14, settledTx 0x79, settledTx 0x50, settledTx 0x6C,
       settledTx 0x0C, settledTx 0x01, settledTx 0x06, [.wait .initTail]] := rfl

/-- Settles O26: with every event completing and every status `ok`, the whole sequence is the only end of `INIT` left. -/
theorem initSendsTheFixedSequence : Obligations.InitSendsTheFixedSequence := by
  unfold Obligations.InitSendsTheFixedSequence
  intro n s _ hg hc hok
  have index_lt : ∀ {j op}, initSeq[j]? = some op → j < 9 := fun h => (List.getElem?_eq_some_iff.1 h).1
  obtain ⟨t, ht⟩ := exec_next (.init n) s
  refine ht.trans (congrArg _ ?_)
  rcases execInit_perInstruction_cases n s t hg ht with
    ⟨hnever, _⟩ | ⟨_, _, rfl⟩ | ⟨j, _, hj, _, _, hfailed, _⟩ | ⟨j, _, h, hj, hh, _, _, hnever, _⟩
  · exact absurd hnever (hc 0 (by omega))
  · rw [initOkEvents_initSeq]
    rfl
  · cases (hok j (index_lt hj)).symm.trans hfailed
  · have := index_lt hj
    exact absurd hnever (hc _ (by omega))

/-- `BATCHED`: the first transaction fails. -/
theorem execInit_batched_first_fails {n : Nat} {s : State} (hg : s.grouping = .batched) (hc : s.completes 5)
    (h4 : s.statusAt 4 = .busError) :
    execInit n s = .next (((s.progress 5 (.busConfigure ::
      (txEvents selIR [0x38] .busError ++ [.wait .settle]))).initUndone).responded .busError 0x00 1) := by
  obtain ⟨t, ht⟩ := exec_next (.init n) s
  refine ht.trans (congrArg _ ?_)
  rcases execInit_batched_cases n s t hg ht with
    ⟨hnever, _⟩ | ⟨h, hh, _, hnever, _⟩ | ⟨_, _, rfl⟩ | ⟨h4', _⟩ | ⟨_, h4', _⟩ | ⟨h4', _⟩ | ⟨_, h4', _⟩ | ⟨_, h4', _⟩
  · exact absurd hnever (hc 0 (by omega))
  · exact absurd hnever (hc _ (by omega))
  · rfl
  all_goals cases h4.symm.trans h4'

/-- `BATCHED`: the second transaction fails. -/
theorem execInit_batched_second_fails {n : Nat} {s : State} (hg : s.grouping = .batched) (hc : s.completes 9)
    (h4 : s.statusAt 4 = .ok) (h8 : s.statusAt 8 = .busError) :
    execInit n s = .next (((s.progress 9 (.busConfigure :: (settledTx 0x38 ++ (.wait .fsGap ::
      (txEvents selIR [0x39] .busError ++ [.wait .settle]))))).initUndone).responded .busError 0x00 2) := by
  obtain ⟨t, ht⟩ := exec_next (.init n) s
  refine ht.trans (congrArg _ ?_)
  rcases execInit_batched_cases n s t hg ht with
    ⟨hnever, _⟩ | ⟨h, hh, _, hnever, _⟩ | ⟨_, h4', _⟩ | ⟨_, h, hh, _, hnever, _⟩ | ⟨_, _, _, rfl⟩ | ⟨_, h8', _⟩ |
    ⟨_, _, h8', _⟩ | ⟨_, _, h8', _⟩
  · exact absurd hnever (hc 0 (by omega))
  · exact absurd hnever (hc _ (by omega))
  · cases h4.symm.trans h4'
  · exact absurd hnever (hc _ (by omega))
  · rfl
  all_goals cases h8.symm.trans h8'

/-- `BATCHED`: where the batch is sent whole, its status decides. -/
theorem execInit_batched_batch_sent {n : Nat} {s : State} (hg : s.grouping = .batched) (hc : s.completes 19)
    (h4 : s.statusAt 4 = .ok) (h8 : s.statusAt 8 = .ok) :
    (s.statusAt 18 = .busError ∧
      execInit n s = .next (((s.progress 19 (.busConfigure :: (settledTx 0x38 ++ (.wait .fsGap :: (settledTx 0x39 ++
        (txEvents selIR initBatch .busError ++ [.wait .initTail])))))).initUndone).responded .busError 0x00 3)) ∨
    (s.statusAt 18 = .ok ∧
      execInit n s = .next (((s.progress 19 (.busConfigure :: (settledTx 0x38 ++ (.wait .fsGap :: (settledTx 0x39 ++
        (txEvents selIR initBatch .ok ++ [.wait .initTail])))))).initReady n).responded .ok 0x00 0)) := by
  obtain ⟨t, ht⟩ := exec_next (.init n) s
  rcases execInit_batched_cases n s t hg ht with
    ⟨hnever, _⟩ | ⟨h, hh, _, hnever, _⟩ | ⟨_, h4', _⟩ | ⟨_, h, hh, _, hnever, _⟩ | ⟨_, _, h8', _⟩ |
    ⟨_, _, h, hh, _, hnever, _⟩ | ⟨_, _, _, h18, rfl⟩ | ⟨_, _, _, h18, rfl⟩
  · exact absurd hnever (hc 0 (by omega))
  · exact absurd hnever (hc _ (by omega))
  · cases h4.symm.trans h4'
  · exact absurd hnever (hc _ (by omega))
  · cases h8.symm.trans h8'
  · exact absurd hnever (hc _ (by omega))
  · exact .inl ⟨h18, ht⟩
  · exact .inr ⟨h18, ht⟩

/-- Settles O28: success and the third failure by the status of the batch, the others by the transaction that fails. -/
theorem batchedInitSendsTheBatch : Obligations.BatchedInitSendsTheBatch := by
  unfold Obligations.BatchedInitSendsTheBatch
  intro n s _ hg
  refine ⟨fun hc h4 h8 h18 => ?_, fun hc h4 h8 h18 => ?_, fun hc h4 h8 => ?_, fun hc h4 => ?_⟩
  · rcases execInit_batched_batch_sent (n := n) hg hc h4 h8 with ⟨h18', _⟩ | ⟨_, he⟩
    · cases h18.symm.trans h18'
    · exact he
  · rcases execInit_batched_batch_sent (n := n) hg hc h4 h8 with ⟨_, he⟩ | ⟨h18', _⟩
    · exact he
    · cases h18.symm.trans h18'
  · exact execInit_batched_second_fails hg hc h4 h8
  · exact execInit_batched_first_fails hg hc h4

/-! ## The entries `INIT` emits once -/

/-- `BusConfigure` and the gap: the two entries that `INIT` alone emits, each at most once. -/
@[simp] def Event.isConfigureOrGap : Event → Bool
  | .busConfigure | .wait .fsGap => true
  | .busBegin _ | .busWrite _ | .busEnd _ | .busRequest _ _ | .wait .settle | .wait .initTail => false

/-- Neither `BusConfigure` nor the gap is among the entries. -/
def NoConfigureOrGap (events : List Event) : Prop := ∀ e ∈ events, e.isConfigureOrGap = false

namespace NoConfigureOrGap

theorem busConfigure_not_mem {es : List Event} (h : NoConfigureOrGap es) : .busConfigure ∉ es :=
  fun hmem => absurd (h _ hmem) (by decide)

theorem gap_not_mem {es : List Event} (h : NoConfigureOrGap es) : .wait .fsGap ∉ es :=
  fun hmem => absurd (h _ hmem) (by decide)

theorem take {es : List Event} (h : NoConfigureOrGap es) (m : Nat) : NoConfigureOrGap (es.take m) :=
  fun e he => h e (List.mem_of_mem_take he)

end NoConfigureOrGap

@[simp] theorem noConfigureOrGap_nil : NoConfigureOrGap [] := nofun

@[simp] theorem noConfigureOrGap_cons (e : Event) (es : List Event) :
    NoConfigureOrGap (e :: es) ↔ e.isConfigureOrGap = false ∧ NoConfigureOrGap es := List.forall_mem_cons

@[simp] theorem noConfigureOrGap_append (es fs : List Event) :
    NoConfigureOrGap (es ++ fs) ↔ NoConfigureOrGap es ∧ NoConfigureOrGap fs := List.forall_mem_append

@[simp] theorem noConfigureOrGap_map_busWrite (p : List Byte) : NoConfigureOrGap (p.map .busWrite) := by
  simp [NoConfigureOrGap]

@[simp] theorem noConfigureOrGap_txEvents (sel : Byte) (p : List Byte) (st : BusStatus) :
    NoConfigureOrGap (txEvents sel p st) := by simp [txEvents]

@[simp] theorem noConfigureOrGap_settledTx (op : Byte) : NoConfigureOrGap (settledTx op) := by simp [settledTx]

@[simp] theorem noConfigureOrGap_txUnended_take (sel : Byte) (p : List Byte) (m : Nat) :
    NoConfigureOrGap ((txUnended sel p).take m) :=
  NoConfigureOrGap.take (by simp [txUnended]) m

theorem noConfigureOrGap_dataOpening_take (d : List Byte) (m : Nat) : NoConfigureOrGap ((dataOpening d).take m) :=
  NoConfigureOrGap.take (by simp [dataOpening]) m

/-- The gap follows the transaction with index 1 alone (40_init_sequencer.md R100). -/
theorem noConfigureOrGap_initOkEvents {ops : List Byte} {k : BitVec 4} (hk : 1 < k.toNat)
    (hlen : k.toNat + ops.length ≤ 16) : NoConfigureOrGap (initOkEvents ops k) := by
  induction ops generalizing k with
  | nil => exact noConfigureOrGap_nil
  | cons op ops ih =>
    rw [List.length_cons] at hlen
    have hne : k ≠ 1 := by
      rintro rfl
      exact absurd hk (by decide)
    rw [initOkEvents, if_neg hne, List.append_nil, noConfigureOrGap_append]
    refine ⟨noConfigureOrGap_settledTx op, ?_⟩
    cases ops with
    | nil => exact noConfigureOrGap_nil
    | cons op' ops =>
      rw [List.length_cons] at hlen ih
      have hnext : (k + 1).toNat = k.toNat + 1 := by
        have hone : (1 : BitVec 4).toNat = 1 := rfl
        rw [BitVec.toNat_add, hone, Nat.mod_eq_of_lt (by omega)]
      exact ih (by omega) (by omega)

/-! ## No other instruction emits `BusConfigure` or the gap -/

/-- What is added to the trace holds neither `BusConfigure` nor the gap. -/
def AddsNoConfigureOrGap (s t : State) : Prop := ∃ events, t.trace = s.trace ++ events ∧ NoConfigureOrGap events

theorem AddsNoConfigureOrGap.of_trace_eq {s t : State} (h : t.trace = s.trace) : AddsNoConfigureOrGap s t :=
  ⟨[], by rw [h, List.append_nil], noConfigureOrGap_nil⟩

theorem runCommand_instr_addsNoConfigureOrGap {op : Byte} {s t : State} (h : runCommand (instr op) s = .next t) :
    AddsNoConfigureOrGap s t := by
  rcases runCommand_instr op s t h with ⟨_, rfl⟩ | ⟨_, _, rfl⟩ | ⟨_, _, _, _, _, rfl⟩
  · exact .of_trace_eq rfl
  · exact ⟨_, rfl, by simp⟩
  · exact ⟨_, rfl, by simp⟩

theorem runCommand_statusRead_addsNoConfigureOrGap {data : Byte → Byte} {s t : State}
    (h : runCommand (statusRead data) s = .next t) : AddsNoConfigureOrGap s t := by
  rcases runCommand_statusRead data s t h with ⟨_, rfl⟩ | ⟨_, _, _, _, rfl⟩ | ⟨_, _, _, rfl⟩ | ⟨_, _, rfl⟩
  · exact .of_trace_eq rfl
  all_goals exact ⟨_, rfl, by simp⟩

theorem execIsAvailable_addsNoConfigureOrGap {s t : State} (h : execIsAvailable s = .next t) :
    AddsNoConfigureOrGap s t := by
  rcases execIsAvailable_cases s t h with ⟨_, rfl⟩ | ⟨_, rfl⟩ | ⟨_, _, rfl⟩ <;>
    exact ⟨_, rfl, by simp⟩

theorem execPrintByte_addsNoConfigureOrGap {b : Byte} {s t : State} (h : execPrintByte b s = .next t) :
    AddsNoConfigureOrGap s t := by
  rcases execPrintByte_cases b s t h with ⟨_, rfl⟩ | ⟨_, _, rfl⟩ | ⟨_, _, _, _, _, rfl⟩
  · exact .of_trace_eq rfl
  · exact ⟨_, rfl, noConfigureOrGap_txEvents _ _ _⟩
  · exact ⟨_, rfl, noConfigureOrGap_txUnended_take _ _ _⟩

theorem execPrintSeq_addsNoConfigureOrGap {n : Nat} {s t : State} (h : execPrintSeq n s = .next t) :
    AddsNoConfigureOrGap s t := by
  rcases execPrintSeq_cases n s t h with
    ⟨_, rfl⟩ | ⟨_, _, _, rfl⟩ | ⟨_, _, _, _, _, _, _, rfl⟩ | ⟨_, _, _, _, _, _, _, rfl⟩
  · exact .of_trace_eq rfl
  · exact ⟨_, rfl, noConfigureOrGap_txEvents _ _ _⟩
  · exact ⟨_, rfl, noConfigureOrGap_txUnended_take _ _ _⟩
  · exact ⟨_, rfl, noConfigureOrGap_dataOpening_take _ _⟩

theorem execSetDataAddressCr_addsNoConfigureOrGap {col : Byte} {row : Nat} {s t : State}
    (h : execSetDataAddressCr col row s = .next t) : AddsNoConfigureOrGap s t := by
  rcases execSetDataAddressCr_cases col row s with ⟨_, he⟩ | ⟨_, _, he⟩ | ⟨_, _, he⟩
  · cases he.symm.trans h
    exact .of_trace_eq rfl
  · cases he.symm.trans h
    exact .of_trace_eq rfl
  · exact runCommand_instr_addsNoConfigureOrGap (he.symm.trans h)

theorem runPrimitive_tx_addsNoConfigureOrGap {sel : Byte} {p : List Byte} {s t : State}
    (h : runPrimitive (tx sel p) s = .next t) : AddsNoConfigureOrGap s t := by
  cases h
  rcases tx_cases sel p s with ⟨_, he⟩ | ⟨_, _, _, _, he⟩ <;> rw [he]
  · exact ⟨_, rfl, noConfigureOrGap_txEvents _ _ _⟩
  · exact ⟨_, rfl, noConfigureOrGap_txUnended_take _ _ _⟩

theorem runPrimitive_writeInstruction_addsNoConfigureOrGap {op : Byte} {s t : State}
    (h : runPrimitive (writeInstruction op) s = .next t) : AddsNoConfigureOrGap s t := by
  cases h
  rcases writeInstruction_cases op s with ⟨_, he⟩ | ⟨_, _, _, _, he⟩ <;> rw [he]
  · exact ⟨_, rfl, by simp⟩
  · exact ⟨_, rfl, by simp⟩

theorem runPrimitive_busRequestAnswered_addsNoConfigureOrGap {a : Addr7} {v : Byte} {s t : State}
    (h : runPrimitive (busRequestAnswered a v) s = .next t) : AddsNoConfigureOrGap s t := by
  cases h
  by_cases h0 : s.drawAt 0 = .never
  · rw [busRequestAnswered_hung h0]
    exact ⟨_, rfl, by simp⟩
  · rw [busRequestAnswered_done h0]
    exact ⟨_, rfl, by simp⟩

/-- Every instruction but `INIT` emits neither `BusConfigure` nor the gap. -/
theorem exec_addsNoConfigureOrGap {i : Instr} {s t : State} (hi : ∀ n, i ≠ .init n) (h : exec i s = .next t) :
    AddsNoConfigureOrGap s t := by
  cases i with
  | init n => exact absurd rfl (hi n)
  | isAvailable => exact execIsAvailable_addsNoConfigureOrGap h
  | printByte b => exact execPrintByte_addsNoConfigureOrGap h
  | printSeq n => exact execPrintSeq_addsNoConfigureOrGap h
  | setDataAddressCr col row => exact execSetDataAddressCr_addsNoConfigureOrGap h
  | clear | home | setEntryMode | setOnOff | setScreenShift | setCursorShift | setDataAddress =>
    exact runCommand_instr_addsNoConfigureOrGap h
  | getStatus | getIsBusy | getAddress => exact runCommand_statusRead_addsNoConfigureOrGap h
  | lcdClear | lcdReturnHome | lcdEntryModeSet | lcdDisplayControl | lcdCursorDisplayShift | lcdFunctionSet
  | lcdSetCgramAddress | lcdSetDdramAddress | extOscFrequency | extContrastLow | extPowerIconContrastHigh
  | extFollowerControl => exact runPrimitive_writeInstruction_addsNoConfigureOrGap h
  | selectorInstruction | selectorData | dataByte => exact runPrimitive_tx_addsNoConfigureOrGap h
  | statusByte => exact runPrimitive_busRequestAnswered_addsNoConfigureOrGap h

/-! ## The shape of what `INIT` emits -/

/-- The entries begin the instruction transaction of `op`, or break off inside its first three events. -/
def BeginsInstruction (op : Byte) (events : List Event) : Prop :=
  ∃ m, 1 ≤ m ∧ events.take 3 = List.take m [.busBegin devAddr, .busWrite selIR, .busWrite op]

theorem beginsInstruction_txEvents (op : Byte) (st : BusStatus) (rest : List Event) :
    BeginsInstruction op (txEvents selIR [op] st ++ rest) := ⟨3, by decide, rfl⟩

theorem beginsInstruction_settledTx (op : Byte) (rest : List Event) : BeginsInstruction op (settledTx op ++ rest) :=
  ⟨3, by decide, rfl⟩

theorem beginsInstruction_txUnended_take (op : Byte) (h : Nat) :
    BeginsInstruction op ((txUnended selIR [op]).take (h + 1)) :=
  ⟨h + 1, by omega, by rw [List.take_take, Nat.min_comm, ← List.take_take]; rfl⟩

/-- The successful transactions of the first `j` bytes, then entries that begin the transaction of the next byte `op`:
together they begin the transaction of the very first byte. -/
theorem beginsInstruction_initOkEvents {first op : Byte} {ops : List Byte} {j : Nat} {k : BitVec 4} {last : List Event}
    (hop : (first :: ops)[j]? = some op) (hlast : BeginsInstruction op last) :
    BeginsInstruction first (initOkEvents ((first :: ops).take j) k ++ last) := by
  cases j with
  | zero =>
    cases hop
    exact hlast
  | succ j =>
    rw [List.take_succ_cons, initOkEvents, List.append_assoc, List.append_assoc]
    exact beginsInstruction_settledTx first _

/-- What an `INIT` adds to the trace after `BusConfigure`, under every behaviour of the transport. -/
inductive InitEvents : List Event → Prop
  /-- hung at `BusConfigure` -/
  | unconfigured : InitEvents []
  /-- hung in the first function-set write -/
  | firstHung (h : Nat) : InitEvents ((txUnended selIR [0x38]).take (h + 1))
  /-- the first function-set write failed -/
  | firstFailed : InitEvents (txEvents selIR [0x38] .busError ++ [.wait .settle])
  /-- the first function-set write, the gap, the second function-set write begun -/
  | pastGap {rest : List Event} (hbegins : BeginsInstruction 0x39 rest) (hno : NoConfigureOrGap rest) :
      InitEvents (settledTx 0x38 ++ .wait .fsGap :: rest)

/-- The `PER_INSTRUCTION` sequence up to and with its gap, and the transactions after it. -/
theorem initOkEvents_initSeq_take_succ (j : Nat) :
    initOkEvents (initSeq.take (j + 1)) 1 =
      settledTx 0x38 ++ .wait .fsGap :: initOkEvents (initSeq.tail.take j) 2 := rfl

/-- The `PER_INSTRUCTION` sequence broken off in the transaction of `op`, past the first. -/
theorem initEvents_initOkEvents {op : Byte} {j : Nat} {last : List Event} (hop : initSeq[j + 1]? = some op)
    (hlast : BeginsInstruction op last) (hno : NoConfigureOrGap last) :
    InitEvents (initOkEvents (initSeq.take (j + 1)) 1 ++ last) := by
  have hlen : (initSeq.tail.take j).length ≤ 8 := List.length_take_le' j initSeq.tail
  rw [initOkEvents_initSeq_take_succ, List.append_assoc, List.cons_append]
  refine .pastGap (beginsInstruction_initOkEvents hop hlast) ((noConfigureOrGap_append _ _).2 ⟨?_, hno⟩)
  exact noConfigureOrGap_initOkEvents (by decide) (by
    have : (2 : BitVec 4).toNat = 2 := rfl
    omega)

theorem execInit_perInstruction_events {n : Nat} {s t : State} (hg : s.grouping = .perInstruction)
    (h : execInit n s = .next t) : ∃ events, t.trace = s.trace ++ .busConfigure :: events ∧ InitEvents events := by
  rcases execInit_perInstruction_cases n s t hg h with
    ⟨_, rfl⟩ | ⟨_, _, rfl⟩ | ⟨j, op, hop, _, _, _, rfl⟩ | ⟨j, op, k, hop, _, _, _, _, rfl⟩
  · exact ⟨[], rfl, .unconfigured⟩
  · have hno : NoConfigureOrGap (initOkEvents initSeq.tail 2 ++ [.wait .initTail]) := by
      simp [noConfigureOrGap_initOkEvents, initSeq]
    exact ⟨_, rfl, .pastGap (beginsInstruction_settledTx 0x39 _) hno⟩
  · refine ⟨_, rfl, ?_⟩
    rw [List.append_assoc]
    cases j with
    | zero =>
      cases hop
      exact .firstFailed
    | succ j => exact initEvents_initOkEvents hop (beginsInstruction_txEvents op _ _) (by simp)
  · refine ⟨_, rfl, ?_⟩
    cases j with
    | zero =>
      cases hop
      exact .firstHung k
    | succ j => exact initEvents_initOkEvents hop (beginsInstruction_txUnended_take op k) (by simp)

theorem execInit_batched_events {n : Nat} {s t : State} (hg : s.grouping = .batched)
    (h : execInit n s = .next t) : ∃ events, t.trace = s.trace ++ .busConfigure :: events ∧ InitEvents events := by
  rcases execInit_batched_cases n s t hg h with
    ⟨_, rfl⟩ | ⟨k, _, _, _, rfl⟩ | ⟨_, _, rfl⟩ | ⟨_, k, _, _, _, rfl⟩ | ⟨_, _, _, rfl⟩ |
    ⟨_, _, _, _, _, _, rfl⟩ | ⟨_, _, _, _, rfl⟩ | ⟨_, _, _, _, rfl⟩
  · exact ⟨[], rfl, .unconfigured⟩
  · exact ⟨_, rfl, .firstHung k⟩
  · exact ⟨_, rfl, .firstFailed⟩
  · exact ⟨_, rfl, .pastGap (beginsInstruction_txUnended_take 0x39 k) (by simp)⟩
  · exact ⟨_, rfl, .pastGap (beginsInstruction_txEvents 0x39 _ _) (by simp)⟩
  all_goals exact ⟨_, rfl, .pastGap (beginsInstruction_settledTx 0x39 _) (by simp)⟩

/-- `INIT` emits `BusConfigure` first, in either grouping. -/
theorem execInit_events {n : Nat} {s t : State} (h : execInit n s = .next t) :
    ∃ events, t.trace = s.trace ++ .busConfigure :: events ∧ InitEvents events := by
  cases hg : s.grouping with
  | perInstruction => exact execInit_perInstruction_events hg h
  | batched => exact execInit_batched_events hg h

theorem InitEvents.busConfigure_not_mem {events : List Event} (h : InitEvents events) : .busConfigure ∉ events := by
  cases h with
  | unconfigured => exact List.not_mem_nil
  | firstHung k => exact (noConfigureOrGap_txUnended_take _ _ _).busConfigure_not_mem
  | firstFailed => exact NoConfigureOrGap.busConfigure_not_mem (by simp)
  | pastGap _ hno =>
    have hfirst := (noConfigureOrGap_settledTx 0x38).busConfigure_not_mem
    exact List.not_mem_append hfirst (List.not_mem_cons_of_ne_of_not_mem nofun hno.busConfigure_not_mem)

/-- `BusConfigure` asks of its draw only whether it is `never`: an answer is used up unread. -/
theorem execInit_answered (n : Nat) (s : State) (st st' : BusStatus) (r r' : ReadAnswer) (later : List Draw) :
    execInit n { s with draws := .answer st r :: later } = execInit n { s with draws := .answer st' r' :: later } := rfl

/-- Settles O30: the shape of what `INIT` emits; the one draw that completes `BusConfigure` read by nothing; and what
every other instruction emits. -/
theorem initConfiguresTheBusOnce : Obligations.InitConfiguresTheBusOnce := by
  unfold Obligations.InitConfiguresTheBusOnce
  refine ⟨fun n s t h => ?_, execInit_answered, fun i s t hi h => ?_⟩
  · obtain ⟨events, htrace, hevents⟩ := execInit_events h
    exact ⟨events, htrace, hevents.busConfigure_not_mem⟩
  · obtain ⟨events, htrace, hno⟩ := exec_addsNoConfigureOrGap hi h
    exact ⟨events, htrace, hno.busConfigure_not_mem⟩

/-- Before the gap, no second function-set byte; after it, no second gap (40_init_sequencer.md R104). -/
theorem InitEvents.gap_cases {events : List Event} (h : InitEvents events) :
    (.wait .fsGap ∉ events ∧ .busWrite 0x39 ∉ events) ∨
    ∃ rest, events = settledTx 0x38 ++ .wait .fsGap :: rest ∧ .wait .fsGap ∉ rest ∧ BeginsInstruction 0x39 rest := by
  cases h with
  | unconfigured => exact .inl ⟨List.not_mem_nil, List.not_mem_nil⟩
  | firstHung k =>
    refine .inl ⟨(noConfigureOrGap_txUnended_take _ _ _).gap_not_mem, fun hmem => ?_⟩
    exact absurd (List.mem_of_mem_take hmem) (by decide)
  | firstFailed => exact .inl (by decide)
  | pastGap hbegins hno => exact .inr ⟨_, rfl, hno.gap_not_mem, hbegins⟩

/-- Settles O31: the shape of what `INIT` emits, split at its gap; and what every other instruction emits. -/
theorem functionSetGapStandsBetweenTheTwoWrites : Obligations.FunctionSetGapStandsBetweenTheTwoWrites := by
  unfold Obligations.FunctionSetGapStandsBetweenTheTwoWrites
  refine ⟨fun n s t h => ?_, fun i s t hi h => ?_⟩
  · obtain ⟨events, htrace, hevents⟩ := execInit_events h
    refine ⟨_, htrace, ?_⟩
    rcases hevents.gap_cases with ⟨hgap, hsecond⟩ | ⟨rest, rfl, hgap, m, hm, hbegins⟩
    · exact .inl ⟨List.not_mem_cons_of_ne_of_not_mem nofun hgap, List.not_mem_cons_of_ne_of_not_mem nofun hsecond⟩
    · exact .inr ⟨m, rest, rfl, hgap, hm, hbegins⟩
  · obtain ⟨events, htrace, hno⟩ := exec_addsNoConfigureOrGap hi h
    exact ⟨events, htrace, hno.gap_not_mem⟩

end Sys2Proof.Machine

/-! Proofs: the device probe (41_availability.md R121, R122). -/

namespace Sys2Proof.Machine

/-- Settles O35: with both events completing, neither of the probe's two hangs is left, and its status is the answer. -/
theorem isAvailableAnswersTheProbe : Obligations.IsAvailableAnswersTheProbe := by
  unfold Obligations.IsAvailableAnswersTheProbe
  intro s hc
  obtain ⟨t, ht⟩ := exec_next .isAvailable s
  refine ht.trans (congrArg _ ?_)
  rcases execIsAvailable_cases s t ht with ⟨_, rfl⟩ | ⟨hbegin, _⟩ | ⟨_, hend, _⟩
  · rw [State.afterEvents_eq_progress]
    rfl
  · exact absurd hbegin (hc 0 (by omega))
  · exact absurd hend (hc 1 (by omega))

end Sys2Proof.Machine

/-! Proofs: the data writes (42_data_write.md R130, R131, R133). -/

namespace Sys2Proof.Machine

/-- What a data command adds to the trace (42_data_write.md R130, R131): nothing where the gate stops it, else one data
transaction, whole or broken off. -/
inductive DataWriteEvents : List Event → Prop
  | gated : DataWriteEvents []
  | ended (d : List Byte) (st : BusStatus) : DataWriteEvents (txEvents selDR d st)
  | brokenOff (d : List Byte) (m : Nat) : DataWriteEvents ((txUnended selDR d).take m)

/-- A transaction whose payload stops short breaks off before its `BusEnd`. -/
theorem dataOpening_take_eq (d : List Byte) (m : Nat) :
    (dataOpening d).take m = (txUnended selDR d).take (min m (d.length + 2)) := by
  have hopening : txUnended selDR d = dataOpening d ++ [.busEnd none] := rfl
  rw [← List.take_take, hopening, List.take_left' (dataOpening_length d)]

theorem execPrintByte_events {b : Byte} {s t : State} (h : execPrintByte b s = .next t) :
    ∃ events, t.trace = s.trace ++ events ∧ DataWriteEvents events := by
  rcases execPrintByte_cases b s t h with ⟨_, rfl⟩ | ⟨_, _, rfl⟩ | ⟨_, _, _, _, _, rfl⟩
  · exact ⟨[], (List.append_nil _).symm, .gated⟩
  · exact ⟨_, rfl, .ended _ _⟩
  · exact ⟨_, rfl, .brokenOff _ _⟩

theorem execPrintSeq_events {n : Nat} {s t : State} (h : execPrintSeq n s = .next t) :
    ∃ events, t.trace = s.trace ++ events ∧ DataWriteEvents events := by
  rcases execPrintSeq_cases n s t h with
    ⟨_, rfl⟩ | ⟨_, _, _, rfl⟩ | ⟨_, _, _, _, _, _, _, rfl⟩ | ⟨_, _, m, _, _, _, _, rfl⟩
  · exact ⟨[], (List.append_nil _).symm, .gated⟩
  · exact ⟨_, rfl, .ended _ _⟩
  · exact ⟨_, rfl, .brokenOff _ _⟩
  · exact ⟨(dataOpening s.payload).take m, rfl, dataOpening_take_eq s.payload m ▸ .brokenOff _ _⟩

/-- A data transaction consists of bus events alone (42_data_write.md R133). -/
theorem DataWriteEvents.wait_not_mem {events : List Event} (h : DataWriteEvents events) (w : WaitKind) :
    .wait w ∉ events := by
  cases h with
  | gated => exact List.not_mem_nil
  | ended d st => simp [txEvents]
  | brokenOff d m =>
    have hwhole : .wait w ∉ txUnended selDR d := by simp [txUnended]
    exact fun hmem => hwhole (List.mem_of_mem_take hmem)

/-- Settles O41: all that a data command adds is its data transaction, which holds no wait. -/
theorem dataWritesEmitNoWait : Obligations.DataWritesEmitNoWait := by
  unfold Obligations.DataWritesEmitNoWait
  rintro i s t (⟨b, rfl⟩ | ⟨n, rfl⟩) h
  · obtain ⟨events, htrace, hevents⟩ := execPrintByte_events h
    exact ⟨events, htrace, hevents.wait_not_mem⟩
  · obtain ⟨events, htrace, hevents⟩ := execPrintSeq_events h
    exact ⟨events, htrace, hevents.wait_not_mem⟩

end Sys2Proof.Machine

/-! Proofs: the instruction commands (43_instruction_commands.md R140, R148, R151).

The model assembles an opcode by shifts and ors, `sentOpcode` adds numbers. The first part shows that the two agree; so
every instruction command is `INSTR` of its `sentOpcode`, and what is left to say is what `INSTR` does. -/

namespace Sys2Proof.Machine

/-! ## The opcodes as numbers -/

theorem entryModeOpcode_eq_ofNat (inc shift : Bool) :
    entryModeOpcode inc shift = BitVec.ofNat 8 (0x04 + 2 * inc.toNat + shift.toNat) := by
  cases inc <;> cases shift <;> rfl

theorem displayCtrlOpcode_eq_ofNat (on cursor blink : Bool) :
    displayCtrlOpcode on cursor blink = BitVec.ofNat 8 (0x08 + 4 * on.toNat + 2 * cursor.toNat + blink.toNat) := by
  cases on <;> cases cursor <;> cases blink <;> rfl

theorem shiftOpcode_eq_ofNat (screen right : Bool) :
    shiftOpcode screen right = BitVec.ofNat 8 (0x10 + 8 * screen.toNat + 4 * right.toNat) := by
  cases screen <;> cases right <;> rfl

/-- Bit 7 of the operand is lost in the or with `0x80` (30_encoding.md R68), so its other bits add to `0x80`. -/
theorem setDdramOpcode_eq_ofNat (a : Byte) : setDdramOpcode a = BitVec.ofNat 8 (0x80 + a.toNat % 0x80) := by
  have hsum : 0x80 + a.toNat % 0x80 = 0x80 ||| a.toNat % 2 ^ 7 :=
    Nat.two_pow_add_eq_or_of_lt (i := 7) (Nat.mod_lt _ (by decide)) 1
  refine BitVec.eq_of_getLsbD_eq fun k hk => ?_
  rw [setDdramOpcode, hsum, BitVec.ofNat_or, BitVec.getLsbD_or, BitVec.getLsbD_or,
    BitVec.getLsbD_ofNat (x := a.toNat % 2 ^ 7), Nat.testBit_mod_two_pow]
  rcases Nat.lt_succ_iff_lt_or_eq.1 hk with hlow | rfl
  · simp [hk, hlow, BitVec.getLsbD]
  · simp

theorem rowColumnAddress_toNat_mod {row : Nat} (hrow : row = 0 ∨ row = 1) (col : Byte) :
    (rowColumnAddress col row).toNat % 0x80 = (0x40 * row + col.toNat) % 0x80 := by
  rcases hrow with rfl | rfl
  · simp [rowColumnAddress]
  · simp [rowColumnAddress, row1Base]

/-! ## Every instruction command is `INSTR` of its opcode -/

/-- Past the row test `SET_DATA_ADDRESS_CR` is `INSTR`, which has the gate itself. -/
theorem execSetDataAddressCr_eq_runCommand_instr {col : Byte} {row : Nat} {s : State}
    (hrow : row = 1 → s.lines = some 2) :
    execSetDataAddressCr col row s = runCommand (instr (setDdramOpcode (rowColumnAddress col row))) s := by
  rcases execSetDataAddressCr_cases col row s with ⟨hnot, he⟩ | ⟨_, ⟨hone, hlines⟩, _⟩ | ⟨_, _, he⟩
  · exact he.trans (runCommand_gated_not_ready hnot).symm
  · exact absurd (hrow hone) hlines
  · exact he

/-- `INSTR(op)` with the opcode of 30_encoding.md R80 is all there is to an instruction command (R140). -/
theorem exec_eq_runCommand_instr {i : Instr} {op : Nat} {s : State} (hwf : i.wellFormed = true)
    (hop : sentOpcode i = some op) (hrow : ∀ col, i = .setDataAddressCr col 1 → s.lines = some 2) :
    exec i s = runCommand (instr (BitVec.ofNat 8 op)) s := by
  cases i <;> simp only [sentOpcode, Option.some.injEq, reduceCtorEq] at hop <;> subst hop
  case clear => rfl
  case home => rfl
  case setEntryMode inc shift => rw [← entryModeOpcode_eq_ofNat]; rfl
  case setOnOff on cursor blink => rw [← displayCtrlOpcode_eq_ofNat]; rfl
  case setScreenShift right => exact shiftOpcode_eq_ofNat true right ▸ rfl
  case setCursorShift right => exact shiftOpcode_eq_ofNat false right ▸ rfl
  case setDataAddress addr =>
    have hopcode : setDdramOpcode (addr.setWidth 8) = BitVec.ofNat 8 (0x80 + addr.toNat) := by
      rw [setDdramOpcode_eq_ofNat, BitVec.toNat_setWidth_of_le (by decide), Nat.mod_eq_of_lt addr.isLt]
    rw [← hopcode]; rfl
  case setDataAddressCr col row =>
    have hrange : row = 0 ∨ row = 1 := by simpa [Instr.wellFormed] using hwf
    rw [← rowColumnAddress_toNat_mod hrange, ← setDdramOpcode_eq_ofNat]
    exact execSetDataAddressCr_eq_runCommand_instr fun hone => hrow col (hone ▸ rfl)

/-- In `READY`, with every event completing, `INSTR` sends its opcode and reports the status. -/
theorem runCommand_instr_done {op : Byte} {s : State} (hready : s.fsm = .ready) (hc : s.completes 4) :
    runCommand (instr op) s = .next
      ((s.progress 4 (txEvents selIR [op] (s.statusAt 3) ++ [.wait .settle])).responded
        (statusResult (s.statusAt 3)) 0x00 0) := by
  rcases runCommand_instr op s _ rfl with ⟨hnot, _⟩ | ⟨_, _, ht⟩ | ⟨_, h, hl, _, hnever, _⟩
  · exact absurd hready hnot
  · exact congrArg _ ht
  · exact absurd hnever (hc h hl)

/-- Settles O42: the command is `INSTR` of its opcode, which the gate refuses outside `READY` and which in `READY` has
one end left when every event completes. -/
theorem instructionCommandSendsItsOpcode : Obligations.InstructionCommandSendsItsOpcode := by
  unfold Obligations.InstructionCommandSendsItsOpcode
  intro i op s hwf hop hrow
  rw [exec_eq_runCommand_instr hwf hop hrow]
  exact ⟨runCommand_gated_not_ready, runCommand_instr_done⟩

/-- Settles O44: of its three ends, an open gate and row 1 without two lines leave only `IGNORED`. -/
theorem rowOneWithoutTwoLinesIsIgnored : Obligations.RowOneWithoutTwoLinesIsIgnored := by
  unfold Obligations.RowOneWithoutTwoLinesIsIgnored
  intro col s hready hlines
  rcases execSetDataAddressCr_cases col 1 s with ⟨hnot, _⟩ | ⟨_, _, he⟩ | ⟨_, hpassed, _⟩
  · exact absurd hready hnot
  · exact he
  · exact absurd ⟨rfl, hlines⟩ hpassed

end Sys2Proof.Machine

/-! Proofs: the status decoder (44_status_read.md R161). -/

namespace Sys2Proof.Machine

/-- The busy flag is the top bit of the byte, and a top bit is set from half of the range on. -/
theorem statusDecode_busy_iff (v : Byte) : (statusDecode v).1 = true ↔ 128 ≤ v.toNat := by
  have hbusy : (statusDecode v).1 = v.msb := (BitVec.msb_eq_getLsbD_last v).symm
  rw [hbusy]
  exact BitVec.msb_eq_true_iff_two_mul_ge.trans (by omega)

/-- A slice from bit 0 is the remainder by the power of two of its width. -/
theorem statusDecode_address_toNat (v : Byte) : (statusDecode v).2.toNat = v.toNat % 128 :=
  BitVec.extractLsb'_toNat 0 7 v

/-- Settles O46: the two parts of the decoder, each as a number. -/
theorem statusByteSplitsIntoBusyAndAddress : Obligations.StatusByteSplitsIntoBusyAndAddress := by
  unfold Obligations.StatusByteSplitsIntoBusyAndAddress
  exact fun v => ⟨statusDecode_busy_iff v, statusDecode_address_toNat v⟩

end Sys2Proof.Machine

/-! Proofs: what belongs to a run, and when it has ended (45_transmit_primitives.md R180, R181).

A command leaves the block idle with a response, or busy with none. So a command is followed by another one only where
it has its response, and at the end of a run the last command's response and `st.busy` say the same. -/

namespace Sys2Proof.Machine

/-! ## An idle block with no command offered -/

/-- All that is left for such a block is a block reset, if the host applies one. -/
theorem step_of_idle {s : State} (hbusy : s.busy = false) (hstage : s.stage = none) (hoffered : s.offered = none) :
    step s = .next s ∨ ∃ rest, step s = .next (blockReset (s.setHost rest)) := by
  have hhost : ∀ w len rest, s.host ≠ .command w len :: rest := fun w len rest hh => by
    simp [State.offered, hh] at hoffered
  rcases step_cases s with ⟨hb, _⟩ | ⟨hb, _⟩ | ⟨_, _, _, _, hs, _⟩ | ⟨_, _, _, _, hs, _⟩ | ⟨_, _, _, hstep⟩ |
    ⟨_, _, rest, _, hstep⟩ | ⟨_, _, w, len, rest, _, hh, _⟩ | ⟨_, _, w, len, rest, _, hh, _⟩
  · cases hbusy.symm.trans hb
  · cases hbusy.symm.trans hb
  · cases hstage.symm.trans hs
  · cases hstage.symm.trans hs
  · exact .inl hstep
  · exact .inr ⟨rest, hstep⟩
  · exact absurd hh (hhost w len rest)
  · exact absurd hh (hhost w len rest)

/-- Settles O13: neither doing nothing nor a block reset adds to the trace. -/
theorem idleBlockEmitsNothing : Obligations.IdleBlockEmitsNothing := by
  unfold Obligations.IdleBlockEmitsNothing
  intro s hbusy hstage hoffered
  rcases step_of_idle hbusy hstage hoffered with hstep | ⟨rest, hstep⟩
  · exact ⟨s, hstep, rfl⟩
  · exact ⟨_, hstep, rfl⟩

/-! ## How a command leaves the block -/

/-- The block is idle and has given a response (45_transmit_primitives.md R171), or it is busy and has given none
(70_reset_and_hazards.md R242). -/
def State.RespondsUnlessBusy (s : State) : Prop := s.rspValid = !s.busy

@[simp] theorem responded_respondsUnlessBusy (s : State) (r : Result) (d : Byte) (k : BitVec 4) :
    (s.responded r d k).RespondsUnlessBusy := rfl

@[simp] theorem hungUp_respondsUnlessBusy (s : State) : s.hungUp.RespondsUnlessBusy := rfl

/-- Each end of a command is `responded` or `hungUp`; so it is for the other families. -/
theorem runCommand_instr_respondsUnlessBusy {op : Byte} {s t : State} (h : runCommand (instr op) s = .next t) :
    t.RespondsUnlessBusy := by
  rcases runCommand_instr op s t h with ⟨_, rfl⟩ | ⟨_, _, rfl⟩ | ⟨_, _, _, _, _, rfl⟩ <;> simp

theorem runCommand_statusRead_respondsUnlessBusy {data : Byte → Byte} {s t : State}
    (h : runCommand (statusRead data) s = .next t) : t.RespondsUnlessBusy := by
  rcases runCommand_statusRead data s t h with ⟨_, rfl⟩ | ⟨_, _, _, _, rfl⟩ | ⟨_, _, _, rfl⟩ | ⟨_, _, rfl⟩ <;> simp

theorem execIsAvailable_respondsUnlessBusy {s t : State} (h : execIsAvailable s = .next t) :
    t.RespondsUnlessBusy := by
  rcases execIsAvailable_cases s t h with ⟨_, rfl⟩ | ⟨_, rfl⟩ | ⟨_, _, rfl⟩ <;> simp

theorem execPrintByte_respondsUnlessBusy {b : Byte} {s t : State} (h : execPrintByte b s = .next t) :
    t.RespondsUnlessBusy := by
  rcases execPrintByte_cases b s t h with ⟨_, rfl⟩ | ⟨_, _, rfl⟩ | ⟨_, _, _, _, _, rfl⟩ <;> simp

theorem execPrintSeq_respondsUnlessBusy {n : Nat} {s t : State} (h : execPrintSeq n s = .next t) :
    t.RespondsUnlessBusy := by
  rcases execPrintSeq_cases n s t h with
    ⟨_, rfl⟩ | ⟨_, _, _, rfl⟩ | ⟨_, _, _, _, _, _, _, rfl⟩ | ⟨_, _, _, _, _, _, _, rfl⟩ <;> simp

theorem execSetDataAddressCr_respondsUnlessBusy {col : Byte} {row : Nat} {s t : State}
    (h : execSetDataAddressCr col row s = .next t) : t.RespondsUnlessBusy := by
  rcases execSetDataAddressCr_cases col row s with ⟨_, he⟩ | ⟨_, _, he⟩ | ⟨_, _, he⟩
  · cases he.symm.trans h
    exact responded_respondsUnlessBusy ..
  · cases he.symm.trans h
    exact responded_respondsUnlessBusy ..
  · exact runCommand_instr_respondsUnlessBusy (he.symm.trans h)

theorem execInit_respondsUnlessBusy {n : Nat} {s t : State} (h : execInit n s = .next t) :
    t.RespondsUnlessBusy := by
  cases hg : s.grouping with
  | perInstruction =>
    rcases execInit_perInstruction_cases n s t hg h with
      ⟨_, rfl⟩ | ⟨_, _, rfl⟩ | ⟨_, _, _, _, _, _, rfl⟩ | ⟨_, _, _, _, _, _, _, _, rfl⟩ <;> simp
  | batched =>
    rcases execInit_batched_cases n s t hg h with
      ⟨_, rfl⟩ | ⟨_, _, _, _, rfl⟩ | ⟨_, _, rfl⟩ | ⟨_, _, _, _, _, rfl⟩ | ⟨_, _, _, rfl⟩ |
      ⟨_, _, _, _, _, _, rfl⟩ | ⟨_, _, _, _, rfl⟩ | ⟨_, _, _, _, rfl⟩ <;> simp

/-- Every command finishes with a response or stays busy with none. -/
theorem exec_respondsUnlessBusy {i : Instr} {s t : State} (hi : i.isCommand = true) (h : exec i s = .next t) :
    t.RespondsUnlessBusy := by
  cases i with
  | init n => exact execInit_respondsUnlessBusy h
  | isAvailable => exact execIsAvailable_respondsUnlessBusy h
  | printByte b => exact execPrintByte_respondsUnlessBusy h
  | printSeq n => exact execPrintSeq_respondsUnlessBusy h
  | setDataAddressCr col row => exact execSetDataAddressCr_respondsUnlessBusy h
  | clear | home | setEntryMode | setOnOff | setScreenShift | setCursorShift | setDataAddress =>
    exact runCommand_instr_respondsUnlessBusy h
  | getStatus | getIsBusy | getAddress => exact runCommand_statusRead_respondsUnlessBusy h
  | _ => cases hi

/-- An accepted command has a next state; so has an invalid word, which gets its response at once. -/
theorem step_of_accepted_respondsUnlessBusy {s : State} {c : Word × Word} (h : s.accepted = some c) :
    ∃ t, step s = .next t ∧ t.RespondsUnlessBusy := by
  obtain ⟨rest, _, _, _, ⟨i, hcommand, _, hstep⟩ | ⟨r, _, hstep⟩⟩ := step_of_accepted h
  · obtain ⟨t, ht⟩ := exec_next i (s.setHost rest)
    exact ⟨t, hstep.trans ht, exec_respondsUnlessBusy hcommand ht⟩
  · exact ⟨_, hstep, responded_respondsUnlessBusy ..⟩

theorem response_eq_none_iff (s : State) : s.response = none ↔ s.rspValid = false := by
  cases h : s.rspValid <;> simp [State.response, h]

/-- After a command, no response is the same as a busy block. -/
theorem State.RespondsUnlessBusy.response_eq_none_iff_busy {s : State} (h : s.RespondsUnlessBusy) :
    s.response = none ↔ s.busy = true := by
  rw [response_eq_none_iff, h, Bool.not_eq_false']

/-! ## What a run is made of -/

/-- A run lists no command and is where it began, or it is one accepted command and the run from there. -/
theorem observe_cases (n : Nat) (s : State) :
    observe n s = ⟨[], s⟩ ∨
    ∃ m c t, s.accepted = some c ∧ step s = .next t ∧ t.RespondsUnlessBusy ∧
      observe n s = ⟨observation c s t :: (observe m t).observed, (observe m t).final⟩ := by
  cases n with
  | zero => exact .inl rfl
  | succ m =>
    cases hacc : s.accepted with
    | none => exact .inl (observe_not_accepted hacc _)
    | some c =>
      obtain ⟨t, hstep, ht⟩ := step_of_accepted_respondsUnlessBusy hacc
      exact .inr ⟨m, c, t, rfl, hstep, ht, observe_accepted hacc hstep m⟩

theorem observe_final_of_observed_nil {n : Nat} {s : State} (h : (observe n s).observed = []) :
    (observe n s).final = s := by
  rcases observe_cases n s with he | ⟨_, _, _, _, _, _, he⟩
  · rw [he]
  · simp [he] at h

/-- A busy block accepts nothing (45_transmit_primitives.md R170), so a run that lists a command starts idle. -/
theorem busy_eq_false_of_observed_ne_nil {n : Nat} {s : State} (h : (observe n s).observed ≠ []) :
    s.busy = false := by
  by_contra hbusy
  rw [observe_not_accepted (accepted_busy (Bool.eq_true_of_not_eq_false hbusy))] at h
  exact h rfl

/-- What R181 says of the triples of a run: all but the last have a response, and the final state is as the last command
left it. -/
theorem observe_last {n : Nat} {s : State} {before : List Observation} {last : Observation}
    (h : (observe n s).observed = before ++ [last]) :
    (∀ o ∈ before, o.response ≠ none) ∧ (observe n s).final.response = last.response ∧
      (observe n s).final.RespondsUnlessBusy := by
  induction before generalizing n s with
  | nil =>
    rcases observe_cases n s with he | ⟨m, c, t, _, _, ht, he⟩
    · simp [he] at h
    · rw [he] at h ⊢
      obtain ⟨rfl, hrest⟩ := List.cons.inj h
      rw [observe_final_of_observed_nil hrest]
      exact ⟨nofun, rfl, ht⟩
  | cons first before ih =>
    rcases observe_cases n s with he | ⟨m, c, t, _, _, ht, he⟩
    · simp [he] at h
    · rw [he] at h ⊢
      obtain ⟨rfl, hrest⟩ := List.cons.inj h
      obtain ⟨hbefore, hfinal⟩ := ih hrest
      have hidle : t.busy = false := busy_eq_false_of_observed_ne_nil (n := m) (by simp [hrest])
      have hfirst : t.response ≠ none := by rw [Ne, ht.response_eq_none_iff_busy, hidle]; exact nofun
      exact ⟨List.forall_mem_cons.2 ⟨hfirst, hbefore⟩, hfinal⟩

/-- A run that lists a command has ended where its final state has a response: that state is idle then. -/
theorem ended_iff_response_ne_none {r : CommandRun} (hne : r.observed ≠ []) (hfinal : r.final.RespondsUnlessBusy) :
    r.ended = true ↔ r.final.response ≠ none := by
  have hvalid : r.final.rspValid = !r.final.busy := hfinal
  rw [Ne, hfinal.response_eq_none_iff_busy]
  simp [CommandRun.ended, hne, hvalid]

/-- Settles O53: the first two clauses are the two equations of `observe`, the third what the last command leaves. -/
theorem runEndsWithTheResponseOfItsLastCommand : Obligations.RunEndsWithTheResponseOfItsLastCommand := by
  unfold Obligations.RunEndsWithTheResponseOfItsLastCommand
  refine ⟨fun n s hacc => observe_not_accepted hacc n, ?_, ?_, ?_⟩
  · intro n s c hacc
    obtain ⟨t, hstep, _⟩ := step_of_accepted_respondsUnlessBusy hacc
    exact ⟨t, hstep, observe_accepted hacc hstep n⟩
  · intro n s before last hobserved
    obtain ⟨hbefore, hresponse, hfinal⟩ := observe_last hobserved
    have hended := ended_iff_response_ne_none (by simp [hobserved]) hfinal
    refine ⟨hbefore, hresponse, hresponse ▸ hended, fun hnone => ?_, congrArg (·, _) hobserved⟩
    have hbusy := hfinal.response_eq_none_iff_busy.1 (hresponse.trans hnone)
    exact ⟨hbusy, accepted_busy hbusy⟩
  · intro n s hobserved
    simp [CommandRun.ended, hobserved]

end Sys2Proof.Machine

/-! Proofs: the results a command raises itself, `NOT_READY` and `READ_FAILURE` (60_exceptions.md R202, R203).

`NOT_READY` is the gate's answer, so it is enough to name the gated commands. `READ_FAILURE` is one of the two ends of a
read that completes; the other one gives the byte's data, which the model takes from bits and `statusData` states in
numbers. -/

namespace Sys2Proof.Machine

/-! ## The gate -/

/-- Every command but `INIT` and `IS_AVAILABLE` starts with `Gate()` (45_transmit_primitives.md R174). -/
theorem exec_eq_runCommand_gated {i : Instr} (hcommand : i.isCommand = true) (havailable : i ≠ .isAvailable)
    (hinit : ∀ n, i ≠ .init n) : ∃ body, ∀ s, exec i s = runCommand (gated body) s := by
  cases i with
  | init n => exact absurd rfl (hinit n)
  | isAvailable => exact absurd rfl havailable
  | printByte | printSeq | clear | home | setEntryMode | setOnOff | setScreenShift | setCursorShift | setDataAddress
  | setDataAddressCr | getStatus | getIsBusy | getAddress => exact ⟨_, fun _ => rfl⟩
  | _ => cases hcommand

/-- Settles O25: the command is gated, and a closed gate answers in place of the command's body. -/
theorem notReadyCommandDoesNothing : Obligations.NotReadyCommandDoesNothing := by
  unfold Obligations.NotReadyCommandDoesNothing
  intro i s hcommand havailable hinit hmode
  obtain ⟨body, hexec⟩ := exec_eq_runCommand_gated hcommand havailable hinit
  exact (hexec s).trans (runCommand_gated_not_ready hmode)

/-! ## The data of a status byte, as numbers -/

theorem busyData_eq_ofNat (v : Byte) : busyData v = BitVec.ofNat 8 (v.toNat / 128) := by
  have hv := v.isLt
  by_cases hhigh : 128 ≤ v.toNat
  · have hflag : (statusDecode v).1 = true := (statusDecode_busy_iff v).2 hhigh
    have hone : v.toNat / 128 = 1 := by omega
    rw [busyData, hflag, hone]
    rfl
  · have hflag : (statusDecode v).1 = false := Bool.eq_false_iff.2 (mt (statusDecode_busy_iff v).1 hhigh)
    have hzero : v.toNat / 128 = 0 := by omega
    rw [busyData, hflag, hzero]
    rfl

theorem addressData_eq_ofNat (v : Byte) : addressData v = BitVec.ofNat 8 (v.toNat % 128) := by
  rw [← statusDecode_address_toNat, addressData, BitVec.ofNat_toNat]

/-! ## The status commands -/

/-- A status command is one read and the byte's `statusData` (44_status_read.md R160, R162, R163). -/
theorem exec_eq_runCommand_statusRead {i : Instr} {data : Nat → Nat} (hdata : statusData i = some data) (s : State) :
    exec i s = runCommand (statusRead fun v => BitVec.ofNat 8 (data v.toNat)) s := by
  cases i <;> simp only [statusData, Option.some.injEq, reduceCtorEq] at hdata <;> subst hdata
  case getStatus => simp only [BitVec.ofNat_toNat, BitVec.setWidth_eq]; rfl
  case getIsBusy => simp only [← busyData_eq_ofNat]; rfl
  case getAddress => simp only [← addressData_eq_ofNat]; rfl

/-- In `READY`, a read answered with a byte ends `OK` with the byte's data. -/
theorem runCommand_statusRead_byte {data : Byte → Byte} {s : State} {v : Byte} (hready : s.fsm = .ready)
    (hc : s.completes 1) (hread : s.readAt 0 = .byte v) :
    runCommand (statusRead data) s = .next
      ((s.progress 1 [.busRequest devAddr (some (.byte v))]).responded .ok (data v) 0) := by
  rcases runCommand_statusRead data s _ rfl with ⟨hnot, _⟩ | ⟨_, _, w, hw, ht⟩ | ⟨_, _, hfailure, _⟩ | ⟨_, hnever, _⟩
  · exact absurd hready hnot
  · cases hread.symm.trans hw
    exact congrArg _ ht
  · cases hread.symm.trans hfailure
  · exact absurd hnever (hc 0 (by decide))

/-- In `READY`, a read that the transport fails ends `READ_FAILURE` with no data (60_exceptions.md R202). -/
theorem runCommand_statusRead_failure {data : Byte → Byte} {s : State} (hready : s.fsm = .ready)
    (hc : s.completes 1) (hread : s.readAt 0 = .failure) :
    runCommand (statusRead data) s = .next
      ((s.progress 1 [.busRequest devAddr (some .failure)]).responded .readFailure 0x00 0) := by
  rcases runCommand_statusRead data s _ rfl with ⟨hnot, _⟩ | ⟨_, _, v, hv, _⟩ | ⟨_, _, _, ht⟩ | ⟨_, hnever, _⟩
  · exact absurd hready hnot
  · cases hread.symm.trans hv
  · exact congrArg _ ht
  · exact absurd hnever (hc 0 (by decide))

/-- Settles O47: the command is one read, and the transport's answer decides which of the read's two ends it has. -/
theorem statusCommandsReadOnce : Obligations.StatusCommandsReadOnce := by
  unfold Obligations.StatusCommandsReadOnce
  intro i data s hdata hready hc
  rw [exec_eq_runCommand_statusRead hdata]
  exact ⟨fun _ hread => runCommand_statusRead_byte hready hc hread, runCommand_statusRead_failure hready hc⟩

end Sys2Proof.Machine

/-! Proofs: what a block reset leaves (70_reset_and_hazards.md R230).

Power-up is one case of a block reset, since `State.reset` is the block reset of itself: what is shown of `blockReset s`
for every `s` covers both. -/

namespace Sys2Proof.Machine

theorem blockReset_reset : blockReset State.reset = State.reset := rfl

/-- A reset block responds nothing until a command is taken up (10_state.md R22). -/
theorem blockReset_response (s : State) : (blockReset s).response = none :=
  (response_eq_none_iff _).2 rfl

theorem blockReset_cmdReady (s : State) : (blockReset s).cmdReady = true := rfl

/-- Of all that a step can do, an idle block with an empty host and byte stage is left doing nothing. -/
theorem step_of_nothing_offered {s : State} (hbusy : s.busy = false) (hstage : s.stage = none) (hhost : s.host = []) :
    step s = .next s := by
  simpa [hbusy, hstage, hhost] using step_cases s

/-- Settles O9: the fields as `blockReset` puts them, and the step of an idle block that is offered nothing. -/
theorem resetLeavesTheBlockUninitialized : Obligations.ResetLeavesTheBlockUninitialized := by
  unfold Obligations.ResetLeavesTheBlockUninitialized
  intro t ht
  obtain ⟨s, rfl⟩ : ∃ s, t = blockReset s := ht.elim (fun h => ⟨_, h.trans blockReset_reset.symm⟩) id
  exact ⟨rfl, rfl, rfl, rfl, rfl, blockReset_response s, blockReset_cmdReady s, step_of_nothing_offered rfl⟩

end Sys2Proof.Machine

/-! Proofs: the decoder and the encoder (30_encoding.md sections 1 to 4).

A command word is its fields: the first part takes a word apart into them and puts it together again. The decoder's test
for unused operand bits then says which fields are 0, and so which word the encoder writes. -/

namespace Sys2Proof.Machine

/-! ## Command words and their fields -/

theorem getLsbD_commandWord (op : BitVec 4) (f2 f1 f0 : Bool) (a : Byte) {k : Nat} (hk : k < 16) :
    (commandWord op f2 f1 f0 a).getLsbD k =
      if k < 8 then a.getLsbD k else if k = 8 then f0 else if k = 9 then f1 else if k = 10 then f2
      else if k = 11 then false else op.getLsbD (k - 12) := by
  simp only [commandWord, BitVec.getLsbD_append]
  interval_cases k <;> simp

@[simp] theorem opField_commandWord (op : BitVec 4) (f2 f1 f0 : Bool) (a : Byte) :
    opField (commandWord op f2 f1 f0 a) = op := by
  refine BitVec.eq_of_getLsbD_eq fun k hk => ?_
  rw [opField, BitVec.getLsbD_extractLsb', getLsbD_commandWord _ _ _ _ _ (by omega)]
  interval_cases k <;> simp

@[simp] theorem aField_commandWord (op : BitVec 4) (f2 f1 f0 : Bool) (a : Byte) :
    aField (commandWord op f2 f1 f0 a) = a := by
  refine BitVec.eq_of_getLsbD_eq fun k hk => ?_
  rw [aField, BitVec.getLsbD_extractLsb', getLsbD_commandWord _ _ _ _ _ (by omega)]
  simp [hk]

@[simp] theorem fBit_zero_commandWord (op : BitVec 4) (f2 f1 f0 : Bool) (a : Byte) :
    fBit (commandWord op f2 f1 f0 a) 0 = f0 := getLsbD_commandWord _ _ _ _ _ (by decide)

@[simp] theorem fBit_one_commandWord (op : BitVec 4) (f2 f1 f0 : Bool) (a : Byte) :
    fBit (commandWord op f2 f1 f0 a) 1 = f1 := getLsbD_commandWord _ _ _ _ _ (by decide)

@[simp] theorem fBit_two_commandWord (op : BitVec 4) (f2 f1 f0 : Bool) (a : Byte) :
    fBit (commandWord op f2 f1 f0 a) 2 = f2 := getLsbD_commandWord _ _ _ _ _ (by decide)

/-- The decoder's test for unused operand bits, bit by bit. -/
theorem unused_eq_zero_iff (w used : Word) :
    w &&& 0x07FF &&& ~~~used = 0 ↔ ∀ k, k < 11 → (w.getLsbD k && !used.getLsbD k) = false := by
  have hbit : ∀ k, k < 16 → (w &&& 0x07FF &&& ~~~used).getLsbD k =
      (w.getLsbD k && decide (k < 11) && !used.getLsbD k) := by
    intro k hk
    rw [BitVec.getLsbD_and, BitVec.getLsbD_and, BitVec.getLsbD_not, getLsbD_operandMask, decide_eq_true hk,
      Bool.true_and]
  constructor
  · intro h k hk
    have h0 := hbit k (by omega)
    rw [h, decide_eq_true hk, Bool.and_true] at h0
    exact h0.symm.trans BitVec.getLsbD_zero
  · intro h
    refine BitVec.eq_of_getLsbD_eq fun k hk => ?_
    refine (hbit k hk).trans (Eq.trans ?_ BitVec.getLsbD_zero.symm)
    by_cases h11 : k < 11
    · rw [decide_eq_true h11, Bool.and_true, h k h11]
    · rw [decide_eq_false h11, Bool.and_false, Bool.false_and]

/-- The decoder's first two tests: neither the reserved bit nor an operand bit that the command code does not use is
set (30_encoding.md R88). -/
structure FieldsValid (w : Word) : Prop where
  reserved : w.getLsbD 11 = false
  unused : w &&& 0x07FF &&& ~~~(usedBits (opField w).toNat) = 0

theorem decodeCommand_of_fieldsValid {w : Word} (h : FieldsValid w) (len : Word) :
    decodeCommand w len = commandOf w len := by
  rw [decodeCommand, h.reserved, if_neg Bool.false_ne_true, if_neg (not_not.2 h.unused)]

theorem decodeCommand_eq_instr_iff {w len : Word} {i : Instr} :
    decodeCommand w len = .instr i ↔ FieldsValid w ∧ commandOf w len = .instr i := by
  refine ⟨fun h => ?_, fun ⟨hvalid, h⟩ => (decodeCommand_of_fieldsValid hvalid len).trans h⟩
  rw [decodeCommand] at h
  split_ifs at h with hreserved hunused
  exact ⟨⟨Bool.eq_false_iff.2 hreserved, not_not.1 hunused⟩, h⟩

/-- A word that passes these tests is what its used fields make. -/
theorem FieldsValid.eq_commandWord {w : Word} (h : FieldsValid w) :
    w = commandWord (opField w) (fBit w 2 && (usedBits (opField w).toNat).getLsbD 10)
      (fBit w 1 && (usedBits (opField w).toNat).getLsbD 9) (fBit w 0 && (usedBits (opField w).toNat).getLsbD 8)
      (aField w &&& (usedBits (opField w).toNat).extractLsb' 0 8) := by
  have hused : ∀ k, k < 11 → (w.getLsbD k && (usedBits (opField w).toNat).getLsbD k) = w.getLsbD k := by
    intro k hk
    have h0 := (unused_eq_zero_iff _ _).1 h.unused k hk
    revert h0
    cases w.getLsbD k <;> simp
  refine BitVec.eq_of_getLsbD_eq fun k hk => ?_
  rw [getLsbD_commandWord _ _ _ _ _ hk]
  split_ifs with h8 h8 h9 h10 h11
  · simp only [aField, BitVec.getLsbD_and, BitVec.getLsbD_extractLsb', h8, decide_true, Bool.true_and, Nat.zero_add,
      hused k (by omega)]
  · subst h8
    exact (hused 8 (by decide)).symm
  · subst h9
    exact (hused 9 (by decide)).symm
  · subst h10
    exact (hused 10 (by decide)).symm
  · exact h11 ▸ h.reserved
  · have hhigh : k - 12 < 4 := by omega
    simp only [opField, BitVec.getLsbD_extractLsb', hhigh, decide_true, Bool.true_and, show 12 + (k - 12) = k by omega]

/-- A word made of fields passes the tests when every field keeps within the used bits. -/
theorem fieldsValid_commandWord {op : BitVec 4} {f2 f1 f0 : Bool} {a : Byte}
    (h2 : f2 = true → (usedBits op.toNat).getLsbD 10 = true) (h1 : f1 = true → (usedBits op.toNat).getLsbD 9 = true)
    (h0 : f0 = true → (usedBits op.toNat).getLsbD 8 = true)
    (ha : a &&& ~~~((usedBits op.toNat).extractLsb' 0 8) = 0) : FieldsValid (commandWord op f2 f1 f0 a) := by
  refine ⟨getLsbD_commandWord _ _ _ _ _ (by decide), (unused_eq_zero_iff _ _).2 fun k hk => ?_⟩
  rw [opField_commandWord, getLsbD_commandWord _ _ _ _ _ (by omega)]
  split_ifs with h8 h8 h9 h10 h11
  · have hbit := congrArg (BitVec.getLsbD · k) ha
    simpa [-BitVec.getLsbD_eq_getElem, BitVec.getLsbD_extractLsb', h8] using hbit
  · simpa [-BitVec.getLsbD_eq_getElem, h8] using h0
  · simpa [-BitVec.getLsbD_eq_getElem, h9] using h1
  · simpa [-BitVec.getLsbD_eq_getElem, h10] using h2
  · omega
  · omega

/-! ## Commands: from the word to the instruction and back -/

/-- The `cmd_len` of a command that was read with `len`: only `PRINT_SEQ` keeps it (30_encoding.md R85). -/
def keptLen (len : Word) : Instr → Word
  | .printSeq _ => len
  | _ => 0

theorem aField_and_ff (w : Word) : aField w &&& 0xFF#8 = aField w := BitVec.and_allOnes

/-- `SET_DATA_ADDRESS` uses all of `A` but bit 7. -/
theorem aField_and_7f (w : Word) : aField w &&& 0x7F#8 = 0#1 ++ w.extractLsb' 0 7 := by
  refine BitVec.eq_of_getLsbD_eq fun k hk => ?_
  simp only [aField, BitVec.getLsbD_and, BitVec.getLsbD_extractLsb', BitVec.getLsbD_append]
  interval_cases k <;> simp

/-- `F[0]` of `INIT` tells the line count 2 from 1 (30_encoding.md R87). -/
theorem lineCount_beq_two (b : Bool) : (1 + b.toNat == 2) = b := by cases b <;> rfl

/-- What a valid word decodes to is encoded as that word: the operands are its used fields, the others are 0. -/
theorem encode_of_commandOf {w len : Word} {i : Instr} (hvalid : FieldsValid w) (h : commandOf w len = .instr i) :
    encode i = .command w (keptLen len i) := by
  have hw := hvalid.eq_commandWord
  have hop : opField w = BitVec.ofNat 4 (opField w).toNat := by simp
  have hlt := (opField w).isLt
  rw [commandOf] at h
  generalize (opField w).toNat = op at hop hlt hw h
  rw [hop] at hw
  refine Eq.trans ?_ (congrArg (CodeWord.command · _) hw.symm)
  interval_cases op <;> simp only [Decoded.instr.injEq, reduceCtorEq] at h <;> subst h <;>
    simp [encode, usedBits, keptLen, aField_and_ff, aField_and_7f, lineCount_beq_two]

/-- The operands a command word can give are in range: `F[0]` is 0 or 1 and `cmd_len` has 16 bits. -/
theorem wellFormed_of_commandOf {w len : Word} {i : Instr} (h : commandOf w len = .instr i) :
    i.wellFormed = true := by
  have hflag : (fBit w 0).toNat = 0 ∨ (fBit w 0).toNat = 1 := by cases fBit w 0 <;> simp
  rw [commandOf] at h
  split at h <;> cases h
  case h_1 => rcases hflag with hf | hf <;> simp [Instr.wellFormed, hf]
  case h_4 => exact decide_eq_true len.isLt
  case h_12 => rcases hflag with hf | hf <;> simp [Instr.wellFormed, hf]
  all_goals rfl

theorem zero_append_and_80 (x : Addr7) : (0#1 ++ x) &&& 0x80#8 = 0#8 := by
  refine BitVec.eq_of_getLsbD_eq fun k hk => ?_
  simp only [BitVec.getLsbD_and, BitVec.getLsbD_append]
  interval_cases k <;> simp

theorem extractLsb'_commandWord (op : BitVec 4) (f2 f1 f0 : Bool) (x : Addr7) :
    (commandWord op f2 f1 f0 (0#1 ++ x)).extractLsb' 0 7 = x := by
  refine BitVec.eq_of_getLsbD_eq fun k hk => ?_
  rw [BitVec.getLsbD_extractLsb', getLsbD_commandWord _ _ _ _ _ (by omega), if_pos (by omega), BitVec.getLsbD_append]
  simp [hk]

/-- The encoder sets no bit that the command code does not use. -/
theorem fieldsValid_encode {i : Instr} {w len : Word} (h : encode i = .command w len) : FieldsValid w := by
  cases i <;> simp only [encode, CodeWord.command.injEq, reduceCtorEq] at h <;> obtain ⟨rfl, _⟩ := h <;>
    apply fieldsValid_commandWord <;> simp [usedBits, zero_append_and_80]

/-- The fields of the encoder's word are the operands. -/
theorem commandOf_encode {i : Instr} {w len : Word} (hwf : i.wellFormed = true) (h : encode i = .command w len) :
    commandOf w len = .instr i := by
  cases i <;> simp only [encode, CodeWord.command.injEq, reduceCtorEq] at h <;> obtain ⟨rfl, rfl⟩ := h <;>
    simp [commandOf, extractLsb'_commandWord]
  case init n =>
    have hn : n = 1 ∨ n = 2 := by simpa [Instr.wellFormed] using hwf
    rcases hn with rfl | rfl <;> rfl
  case printSeq n => simpa [Instr.wellFormed] using hwf
  case setDataAddressCr col row =>
    have hrow : row = 0 ∨ row = 1 := by simpa [Instr.wellFormed] using hwf
    rcases hrow with rfl | rfl <;> rfl

/-! ## Bytes: from the byte to the instruction and back -/

/-- The family bit, the named bits and the unnamed bits, which are 0 (30_encoding.md R60, R69), make the byte again. -/
theorem encode_of_decodeIr8 {b : Byte} {i : Instr} (h : decodeIr8 b = .instr i) : encode i = .byteWord .lcdIr8 b := by
  rw [decodeIr8] at h
  split_ifs at h <;> cases h <;> refine congrArg _ (BitVec.eq_of_getLsbD_eq fun k hk => ?_) <;>
    simp only [BitVec.getLsbD_append, BitVec.ofNat_eq_ofNat] <;> interval_cases k <;>
    simp_all [-BitVec.getLsbD_eq_getElem]

theorem encode_of_decodeIr8Ext {b : Byte} {i : Instr} (h : decodeIr8Ext b = .instr i) :
    encode i = .byteWord .lcdIr8Ext b := by
  rw [decodeIr8Ext] at h
  split_ifs at h with hb hb hb hb <;> cases h <;> rw [hb] <;> rfl

theorem encode_of_decodeSelector {b : Byte} {i : Instr} (h : decodeSelector b = .instr i) :
    encode i = .byteWord .controlByte b := by
  rw [decodeSelector] at h
  split_ifs at h with hb hb <;> cases h <;> rw [hb] <;> rfl

theorem status_bits (b : Byte) : BitVec.ofBool (b.getLsbD 7) ++ b.extractLsb' 0 7 = b := by
  refine BitVec.eq_of_getLsbD_eq fun k hk => ?_
  simp only [BitVec.getLsbD_append, BitVec.getLsbD_extractLsb']
  interval_cases k <;> simp

theorem encode_of_decodeByte {f : ByteFormat} {b : Byte} {i : Instr} (h : decodeByte f b = .instr i) :
    encode i = .byteWord f b := by
  cases f with
  | lcdIr8 => exact encode_of_decodeIr8 h
  | lcdIr8Ext => exact encode_of_decodeIr8Ext h
  | controlByte => exact encode_of_decodeSelector h
  | lcdDr8 => cases h; rfl
  | status8 => cases h; exact congrArg _ (status_bits b)

/-- No operand of a byte row has a range beyond its type. -/
theorem wellFormed_of_decodeByte {f : ByteFormat} {b : Byte} {i : Instr} (h : decodeByte f b = .instr i) :
    i.wellFormed = true := by
  have hbyte : i.isCommand = false := not_isCommand_of_decode_byteWord h
  cases i <;> first | rfl | cases hbyte

/-- The encoder's byte is in the family of its row, with the operands as the named bits. -/
theorem decodeByte_encode {i : Instr} {f : ByteFormat} {b : Byte} (h : encode i = .byteWord f b) :
    decodeByte f b = .instr i := by
  cases i <;> simp only [encode, CodeWord.byteWord.injEq, reduceCtorEq] at h <;> obtain ⟨rfl, rfl⟩ := h
  case lcdEntryModeSet inc shift => cases inc <;> cases shift <;> rfl
  case lcdDisplayControl on cursor blink => cases on <;> cases cursor <;> cases blink <;> rfl
  case lcdCursorDisplayShift screen right => cases screen <;> cases right <;> rfl
  case lcdFunctionSet dl n dh ext => cases dl <;> cases n <;> cases dh <;> cases ext <;> rfl
  case lcdSetCgramAddress addr => revert addr; decide
  case lcdSetDdramAddress addr => revert addr; decide
  case statusByte busy addr => revert busy addr; decide
  all_goals rfl

/-! ## The obligations about the decoder -/

/-- Settles O1: a command's fields and a byte's bits are read as they were written. -/
theorem encodedInstructionDecodesToItself : Obligations.EncodedInstructionDecodesToItself := by
  unfold Obligations.EncodedInstructionDecodesToItself
  intro i hwf
  cases hc : encode i with
  | command w len => exact decodeCommand_eq_instr_iff.2 ⟨fieldsValid_encode hc, commandOf_encode hwf hc⟩
  | byteWord f b => exact decodeByte_encode hc

/-- Settles O2: a command by its fields, a byte because no row of a byte format limits its operands. -/
theorem decodedInstructionIsWellFormed : Obligations.DecodedInstructionIsWellFormed := by
  unfold Obligations.DecodedInstructionIsWellFormed
  intro c i h
  cases c with
  | command w len => exact wellFormed_of_commandOf (decodeCommand_eq_instr_iff.1 h).2
  | byteWord f b => exact wellFormed_of_decodeByte h

/-- Settles O3: a byte and a valid command word are what their bits make. -/
theorem codeWordIsTheEncodingOfItsInstruction : Obligations.CodeWordIsTheEncodingOfItsInstruction := by
  unfold Obligations.CodeWordIsTheEncodingOfItsInstruction
  refine ⟨fun f b i h => encode_of_decodeByte h, fun w len i h => ?_⟩
  obtain ⟨hvalid, hcommand⟩ := decodeCommand_eq_instr_iff.1 h
  refine (encode_of_commandOf hvalid hcommand).trans ?_
  cases i <;> rfl

/-! ## The rows of the opcode table -/

/-- The bits that the row of a command code fixes: `OP`, the reserved bit and the operand bits that it does not use. -/
def rowMask (op : Nat) : Word := 0xF800 ||| (0x07FF &&& ~~~(usedBits op))

theorem commandRows_eq : commandRows = (List.range 15).map fun op =>
    (commandWord (BitVec.ofNat 4 op) false false false 0, rowMask op) := by decide

theorem getLsbD_rowMask (op : Nat) {k : Nat} (hk : k < 16) :
    (rowMask op).getLsbD k = (decide (11 ≤ k) || !(usedBits op).getLsbD k) := by
  have hhigh : ∀ j : Fin 16, (0xF800 : Word).getLsbD j = decide (11 ≤ j.val) := by decide
  rw [rowMask, BitVec.getLsbD_or, BitVec.getLsbD_and, BitVec.getLsbD_not, getLsbD_operandMask, hhigh ⟨k, hk⟩]
  by_cases h11 : 11 ≤ k
  · simp [h11]
  · simp [h11, hk, show k < 11 by omega]

/-- A word that passes the tests is valid for the row of its `OP`, and for no other row. -/
theorem and_rowMask_eq_iff (w : Word) (op : BitVec 4) :
    w &&& rowMask op.toNat = commandWord op false false false 0 ↔
      opField w = op ∧ FieldsValid w := by
  have hrow : ∀ k, k < 16 → (commandWord op false false false 0).getLsbD k =
      if k < 12 then false else op.getLsbD (k - 12) := by
    intro k hk
    rw [getLsbD_commandWord _ _ _ _ _ hk]
    interval_cases k <;> simp
  have hop : ∀ k, k < 4 → (opField w).getLsbD k = w.getLsbD (12 + k) := fun k hk => by
    simp only [opField, BitVec.getLsbD_extractLsb', hk, decide_true, Bool.true_and]
  constructor
  · intro h
    have hbits : ∀ k, k < 16 → (w.getLsbD k && (decide (11 ≤ k) || !(usedBits op.toNat).getLsbD k)) =
        if k < 12 then false else op.getLsbD (k - 12) := by
      intro k hk
      rw [← getLsbD_rowMask _ hk, ← BitVec.getLsbD_and, h, hrow k hk]
    have hop' : opField w = op := by
      refine BitVec.eq_of_getLsbD_eq fun k hk => ?_
      simpa [-BitVec.getLsbD_eq_getElem, hop k hk, show 11 ≤ 12 + k by omega] using hbits (12 + k) (by omega)
    refine ⟨hop', by simpa [-BitVec.getLsbD_eq_getElem] using hbits 11 (by decide), ?_⟩
    rw [hop', unused_eq_zero_iff]
    intro k hk
    simpa [-BitVec.getLsbD_eq_getElem, show ¬ 11 ≤ k by omega, show k < 12 by omega] using hbits k (by omega)
  · rintro ⟨rfl, hvalid⟩
    refine BitVec.eq_of_getLsbD_eq fun k hk => ?_
    rw [hrow k hk, BitVec.getLsbD_and, getLsbD_rowMask _ hk]
    split_ifs with h12
    · rcases Nat.lt_succ_iff_lt_or_eq.1 h12 with h11 | rfl
      · rw [decide_eq_false (by omega : ¬ 11 ≤ k), Bool.false_or]
        exact (unused_eq_zero_iff _ _).1 hvalid.unused k h11
      · rw [hvalid.reserved, Bool.false_and]
    · rw [hop _ (by omega), decide_eq_true (by omega : 11 ≤ k), Bool.true_or, Bool.and_true,
        show 12 + (k - 12) = k by omega]

theorem validForSomeRow_iff (w : Word) : validForSomeRow w = true ↔ FieldsValid w ∧ (opField w).toNat < 15 := by
  simp only [validForSomeRow, commandRows_eq, List.any_map, List.any_eq_true, List.mem_range, Function.comp_apply,
    beq_iff_eq]
  constructor
  · rintro ⟨op, hop, hrow⟩
    obtain ⟨op, rfl⟩ : ∃ o : BitVec 4, op = o.toNat := ⟨BitVec.ofNat 4 op, (Nat.mod_eq_of_lt (by omega)).symm⟩
    rw [BitVec.ofNat_toNat, BitVec.setWidth_eq, and_rowMask_eq_iff] at hrow
    exact ⟨hrow.2, hrow.1 ▸ hop⟩
  · rintro ⟨hvalid, hop⟩
    refine ⟨_, hop, ?_⟩
    rw [BitVec.ofNat_toNat, BitVec.setWidth_eq, and_rowMask_eq_iff]
    exact ⟨rfl, hvalid⟩

theorem commandOf_eq_instr_iff (w len : Word) : (∃ i, commandOf w len = .instr i) ↔ (opField w).toNat < 15 := by
  have hop := (opField w).isLt
  unfold commandOf
  generalize (opField w).toNat = op at hop ⊢
  interval_cases op <;> simp

/-- Settles O4: a word decodes when it passes the tests and its `OP` is not `0xF`, and so does the mask of its row. -/
theorem commandWordDecodesExactlyWhenATableRowMatches : Obligations.CommandWordDecodesExactlyWhenATableRowMatches := by
  unfold Obligations.CommandWordDecodesExactlyWhenATableRowMatches
  intro w len
  have hdecodes : (∃ i, i.isCommand = true ∧ decode (.command w len) = .instr i) ↔
      FieldsValid w ∧ (opField w).toNat < 15 := by
    rw [← commandOf_eq_instr_iff w len]
    constructor
    · rintro ⟨i, _, h⟩
      obtain ⟨hvalid, hcommand⟩ := decodeCommand_eq_instr_iff.1 h
      exact ⟨hvalid, i, hcommand⟩
    · rintro ⟨hvalid, i, hcommand⟩
      have h := decodeCommand_eq_instr_iff.2 ⟨hvalid, hcommand⟩
      exact ⟨i, isCommand_of_decode h, h⟩
  rw [hdecodes, validForSomeRow_iff]

/-! ## Tables of the spec -/

/-- Settles O6. -/
theorem sampleTableWordsDecode : Obligations.SampleTableWordsDecode := by
  unfold Obligations.SampleTableWordsDecode
  decide

/-- Settles O51. -/
theorem wordWithoutFormatReadsFixedRowsFirst : Obligations.WordWithoutFormatReadsFixedRowsFirst := by
  unfold Obligations.WordWithoutFormatReadsFixedRowsFirst
  decide

/-- Settles O8. -/
theorem hardwiredConstants : Obligations.HardwiredConstants := ⟨rfl, rfl, rfl, rfl, rfl⟩

/-- Settles O52: each code by its value, the codes never produced by the cases of the two types. -/
theorem resultAndModeCodes : Obligations.ResultAndModeCodes := by
  unfold Obligations.ResultAndModeCodes
  refine ⟨rfl, rfl, rfl, rfl, rfl, rfl, fun r => ?_, rfl, rfl, rfl, fun m => ?_⟩
  · cases r <;> decide
  · cases m <;> decide

/-- Settles O7: the flags by their values, the addresses bit by bit. -/
theorem assembledOpcodesAreTheRowsEncodings : Obligations.AssembledOpcodesAreTheRowsEncodings := by
  unfold Obligations.AssembledOpcodesAreTheRowsEncodings
  refine ⟨rfl, rfl, fun inc shift => ?_, fun on cursor blink => ?_, fun screen right => ?_, fun dl n dh ext => ?_,
    fun a => ?_, fun a => ?_, fun busy a => ?_⟩
  · cases inc <;> cases shift <;> rfl
  · cases on <;> cases cursor <;> cases blink <;> rfl
  · cases screen <;> cases right <;> rfl
  · cases dl <;> cases n <;> cases dh <;> cases ext <;> rfl
  · refine congrArg _ (BitVec.eq_of_getLsbD_eq fun k hk => ?_)
    simp only [setCgramOpcode, BitVec.getLsbD_append, BitVec.getLsbD_or, BitVec.getLsbD_setWidth]
    interval_cases k <;> simp
  · refine congrArg _ (BitVec.eq_of_getLsbD_eq fun k hk => ?_)
    simp only [setDdramOpcode, BitVec.getLsbD_append, BitVec.getLsbD_or, BitVec.getLsbD_extractLsb']
    interval_cases k <;> simp
  · refine congrArg _ (BitVec.eq_of_getLsbD_eq fun k hk => ?_)
    simp only [statusEncode, bitAt, BitVec.getLsbD_append, BitVec.getLsbD_or, BitVec.getLsbD_setWidth,
      BitVec.getLsbD_shiftLeft]
    interval_cases k <;> simp

end Sys2Proof.Machine

/-! Proofs: how an instruction ends, and what follows for the block whatever the transport does.

Three relations say, once for all of `exec`, in which states an instruction can leave the block: `PrimitiveEnd` for a
byte, `CommandEnd` for a command but `INIT`, `InitEnd` for `INIT`. The claims about every step and every command are
read off them by their cases. -/

namespace Sys2Proof.Machine

/-! ## The phases of the bus -/

theorem afterAll_cons (p : BusPhase) (e : Event) (es : List Event) :
    p.afterAll (e :: es) = (p.after e).bind fun q => q.afterAll es := rfl

theorem afterAll_append (p : BusPhase) (es fs : List Event) :
    p.afterAll (es ++ fs) = (p.afterAll es).bind fun q => q.afterAll fs := by
  induction es generalizing p with
  | nil => rfl
  | cons e es ih =>
    rw [List.cons_append, afterAll_cons, afterAll_cons, Option.bind_assoc]
    exact congrArg _ (funext fun q => ih q)

/-- From one phase to another, then on from there. -/
theorem afterAll_append_of_eq {p q : BusPhase} {es : List Event} (h : p.afterAll es = some q) (fs : List Event) :
    p.afterAll (es ++ fs) = q.afterAll fs := by rw [afterAll_append, h, Option.bind_some]

/-- A first part of entries that fit fits. -/
theorem exists_afterAll_take {p q : BusPhase} {es : List Event} (h : p.afterAll es = some q) (m : Nat) :
    ∃ q', p.afterAll (es.take m) = some q' := by
  rw [← List.take_append_drop m es, afterAll_append] at h
  obtain ⟨q', hq', _⟩ := Option.bind_eq_some_iff.1 h
  exact ⟨q', hq'⟩

theorem afterAll_data (d : List Byte) : BusPhase.drPayload.afterAll (d.map .busWrite) = some .drPayload := by
  induction d with
  | nil => rfl
  | cons b d ih => exact ih

/-- After the selector `0x00`, listed opcodes fit, however many. -/
theorem afterAll_opcodes {ops : List Byte} (hops : ∀ op ∈ ops, emittedOpcode op = true) :
    BusPhase.irPayload.afterAll (ops.map .busWrite) = some .irPayload := by
  induction ops with
  | nil => rfl
  | cons op ops ih =>
    obtain ⟨hop, hrest⟩ := List.forall_mem_cons.1 hops
    rw [List.map_cons, afterAll_cons, BusPhase.after, if_pos hop]
    exact ih hrest

/-- A data transaction fits up to its end, which completes or not. -/
theorem afterAll_dataOpening (d : List Byte) : BusPhase.idle.afterAll (dataOpening d) = some .drPayload :=
  afterAll_data d

theorem afterAll_dataTx (d : List Byte) (st : BusStatus) :
    BusPhase.idle.afterAll (txEvents selDR d st) = some .idle :=
  afterAll_append_of_eq (afterAll_dataOpening d) [.busEnd (some st)]

theorem afterAll_dataUnended (d : List Byte) : BusPhase.idle.afterAll (txUnended selDR d) = some .dead :=
  afterAll_append_of_eq (afterAll_dataOpening d) [.busEnd none]

/-- So does a transaction of listed opcodes. -/
theorem afterAll_opcodeOpening {op : Byte} {ops : List Byte} (hops : ∀ o ∈ op :: ops, emittedOpcode o = true) :
    BusPhase.idle.afterAll ([.busBegin devAddr, .busWrite selIR] ++ (op :: ops).map .busWrite) = some .irPayload := by
  obtain ⟨hop, hrest⟩ := List.forall_mem_cons.1 hops
  rw [afterAll_append_of_eq (q := .irSelected) rfl, List.map_cons, afterAll_cons, BusPhase.after, if_pos hop]
  exact afterAll_opcodes hrest

theorem afterAll_opcodeTx {op : Byte} {ops : List Byte} (hops : ∀ o ∈ op :: ops, emittedOpcode o = true)
    (st : BusStatus) : BusPhase.idle.afterAll (txEvents selIR (op :: ops) st) = some .idle :=
  afterAll_append_of_eq (afterAll_opcodeOpening hops) [.busEnd (some st)]

theorem afterAll_opcodeUnended {op : Byte} {ops : List Byte} (hops : ∀ o ∈ op :: ops, emittedOpcode o = true) :
    BusPhase.idle.afterAll (txUnended selIR (op :: ops)) = some .dead :=
  afterAll_append_of_eq (afterAll_opcodeOpening hops) [.busEnd none]

/-- One listed opcode and its settle wait. -/
theorem afterAll_instruction {op : Byte} (hop : emittedOpcode op = true) (st : BusStatus) :
    BusPhase.idle.afterAll (txEvents selIR [op] st ++ [.wait .settle]) = some .idle :=
  afterAll_append_of_eq (afterAll_opcodeTx (List.forall_mem_singleton.2 hop) st) [.wait .settle]

/-! ## The opcodes that commands send are listed -/

theorem emittedOpcode_entryMode (inc shift : Bool) : emittedOpcode (entryModeOpcode inc shift) = true := by
  cases inc <;> cases shift <;> rfl

theorem emittedOpcode_displayCtrl (on cursor blink : Bool) :
    emittedOpcode (displayCtrlOpcode on cursor blink) = true := by
  cases on <;> cases cursor <;> cases blink <;> rfl

theorem emittedOpcode_shift (screen right : Bool) : emittedOpcode (shiftOpcode screen right) = true := by
  cases screen <;> cases right <;> rfl

theorem emittedOpcode_setDdram (a : Byte) : emittedOpcode (setDdramOpcode a) = true := by
  have hhigh : 0x80 ≤ (setDdramOpcode a).toNat := by
    rw [setDdramOpcode_eq_ofNat, BitVec.toNat_ofNat]
    omega
  simp [emittedOpcode, hhigh]

/-! ## How a byte ends -/

/-- A byte run by itself adds to the trace and is through, or is left hung; it gives no response. -/
inductive PrimitiveEnd (s : State) : State → Prop
  | done (n : Nat) (es : List Event) : PrimitiveEnd s (s.progress n es)
  | hung (n : Nat) (es : List Event) : PrimitiveEnd s (s.progress n es).hungUp

theorem runPrimitive_tx_end {sel : Byte} {p : List Byte} {s t : State} (h : runPrimitive (tx sel p) s = .next t) :
    PrimitiveEnd s t := by
  cases h
  rcases tx_cases sel p s with ⟨_, he⟩ | ⟨_, _, _, _, he⟩ <;> rw [he]
  · exact .done _ _
  · exact .hung _ _

theorem runPrimitive_writeInstruction_end {op : Byte} {s t : State}
    (h : runPrimitive (writeInstruction op) s = .next t) : PrimitiveEnd s t := by
  cases h
  rcases writeInstruction_cases op s with ⟨_, he⟩ | ⟨_, _, _, _, he⟩ <;> rw [he]
  · exact .done _ _
  · exact .hung _ _

theorem runPrimitive_busRequestAnswered_end {a : Addr7} {v : Byte} {s t : State}
    (h : runPrimitive (busRequestAnswered a v) s = .next t) : PrimitiveEnd s t := by
  cases h
  by_cases h0 : s.drawAt 0 = .never
  · rw [busRequestAnswered_hung h0]
    exact .hung _ _
  · rw [busRequestAnswered_done h0]
    exact .done _ _

theorem exec_primitiveEnd {i : Instr} {s t : State} (hi : i.isCommand = false) (h : exec i s = .next t) :
    PrimitiveEnd s t := by
  cases i with
  | lcdClear | lcdReturnHome | lcdEntryModeSet | lcdDisplayControl | lcdCursorDisplayShift | lcdFunctionSet
  | lcdSetCgramAddress | lcdSetDdramAddress | extOscFrequency | extContrastLow | extPowerIconContrastHigh
  | extFollowerControl => exact runPrimitive_writeInstruction_end h
  | selectorInstruction | selectorData | dataByte => exact runPrimitive_tx_end h
  | statusByte => exact runPrimitive_busRequestAnswered_end h
  | _ => cases hi

/-! ## How a command but `INIT` ends -/

/-- What can keep a command from finishing: one of its transport events, or too few payload bytes. -/
def State.CanHang (s : State) (i : Instr) : Prop :=
  (∃ k, k < eventBound i ∧ s.drawAt k = .never) ∨ ∃ n, i = .printSeq n ∧ s.payload.length < n

/-- A command but `INIT` leaves mode, lines and sequencer step alone. It finishes after whole transactions, with a
result and data that are its own to give; or something failed it, and it hangs. Only `PRINT_SEQ` touches the payload. -/
inductive CommandEnd (i : Instr) (s : State) : State → Prop
  | finished {n : Nat} {es : List Event} {p : List Byte} {r : Result} {d : Byte}
      (hevents : BusPhase.idle.afterAll es = some .idle) (hresult : canEndWith i r = true)
      (hok : r = .ok → okData i d = true) (herror : r ≠ .ok → d = 0)
      (hpayload : (∀ n, i ≠ .printSeq n) → p = s.payload) :
      CommandEnd i s (((s.progress n es).setPayload p).responded r d 0)
  | hung {n : Nat} {es : List Event} {p : List Byte} {f : Nat} {q : BusPhase}
      (hevents : BusPhase.idle.afterAll es = some q) (hcan : s.CanHang i)
      (hpayload : (∀ n, i ≠ .printSeq n) → p = s.payload ∧ f = s.freeCount) :
      CommandEnd i s (State.hungUp { s.progress n es with payload := p, freeCount := f })

namespace CommandEnd

variable {i : Instr} {s : State}

/-- A command that finishes with no transport event and no data: `NOT_READY`, `IGNORED`. -/
theorem of_error {r : Result} (hresult : canEndWith i r = true) (hr : r ≠ .ok) :
    CommandEnd i s (s.responded r 0x00 0) := by
  have h : CommandEnd i s (((s.progress 0 []).setPayload s.payload).responded r 0x00 0) :=
    .finished rfl hresult (fun h => absurd h hr) (fun _ => rfl) fun _ => rfl
  rwa [s.progress_zero] at h

/-- A command whose payload stays as it is finishes. -/
theorem of_responded {n : Nat} {es : List Event} {r : Result} {d : Byte}
    (hevents : BusPhase.idle.afterAll es = some .idle) (hresult : canEndWith i r = true)
    (hok : r = .ok → okData i d = true) (herror : r ≠ .ok → d = 0) :
    CommandEnd i s ((s.progress n es).responded r d 0) :=
  .finished (p := s.payload) hevents hresult hok herror fun _ => rfl

/-- A command whose payload stays as it is hangs at its event `k`, in a first part of events that fit. -/
theorem of_hungUp {n m k : Nat} {es : List Event} {q : BusPhase} (hevents : BusPhase.idle.afterAll es = some q)
    (hk : k < eventBound i) (hnever : s.drawAt k = .never) : CommandEnd i s (s.progress n (es.take m)).hungUp := by
  obtain ⟨_, hq⟩ := exists_afterAll_take hevents m
  exact .hung (p := s.payload) (f := s.freeCount) hq (.inl ⟨k, hk, hnever⟩) fun _ => ⟨rfl, rfl⟩

end CommandEnd

/-- What a command of one write transaction is allowed: its results, the data `0x00`, four events. -/
structure OneWrite (i : Instr) : Prop where
  notReady : canEndWith i .notReady = true
  busError : canEndWith i .busError = true
  data : okData i 0x00 = true
  events : 4 ≤ eventBound i

theorem canEndWith_ok (i : Instr) : canEndWith i .ok = true := rfl

theorem OneWrite.statusResult {i : Instr} (hi : OneWrite i) (st : BusStatus) :
    canEndWith i (statusResult st) = true := by
  cases st with
  | ok => exact canEndWith_ok i
  | busError => exact hi.busError

theorem runCommand_instr_end {i : Instr} (hi : OneWrite i) {op : Byte} (hop : emittedOpcode op = true) {s t : State}
    (h : runCommand (instr op) s = .next t) : CommandEnd i s t := by
  rcases runCommand_instr op s t h with ⟨_, rfl⟩ | ⟨_, _, rfl⟩ | ⟨_, k, hk, _, hnever, rfl⟩
  · exact .of_error hi.notReady nofun
  · exact .of_responded (afterAll_instruction hop _) (hi.statusResult _) (fun _ => hi.data) fun _ => rfl
  · exact .of_hungUp (afterAll_opcodeUnended (List.forall_mem_singleton.2 hop)) (hk.trans_le hi.events) hnever

theorem execSetDataAddressCr_end {col : Byte} {row : Nat} {s t : State}
    (h : execSetDataAddressCr col row s = .next t) : CommandEnd (.setDataAddressCr col row) s t := by
  rcases execSetDataAddressCr_cases col row s with ⟨_, he⟩ | ⟨_, _, he⟩ | ⟨_, _, he⟩
  · cases he.symm.trans h
    exact .of_error rfl nofun
  · cases he.symm.trans h
    exact .of_error rfl nofun
  · exact runCommand_instr_end ⟨rfl, rfl, rfl, le_rfl⟩ (emittedOpcode_setDdram _) (he.symm.trans h)

theorem runCommand_statusRead_end {i : Instr} {data : Byte → Byte} (hnotReady : canEndWith i .notReady = true)
    (hfailure : canEndWith i .readFailure = true) (hdata : ∀ v, okData i (data v) = true) (hbound : 0 < eventBound i)
    {s t : State} (h : runCommand (statusRead data) s = .next t) : CommandEnd i s t := by
  rcases runCommand_statusRead data s t h with ⟨_, rfl⟩ | ⟨_, _, v, _, rfl⟩ | ⟨_, _, _, rfl⟩ | ⟨_, hnever, rfl⟩
  · exact .of_error hnotReady nofun
  · exact .of_responded rfl (canEndWith_ok i) (fun _ => hdata v) fun h => absurd rfl h
  · exact .of_responded rfl hfailure nofun fun _ => rfl
  · exact .of_hungUp (es := [.busRequest devAddr none]) (m := 1) (q := .dead) rfl hbound hnever

theorem execIsAvailable_end {s t : State} (h : execIsAvailable s = .next t) : CommandEnd .isAvailable s t := by
  rcases execIsAvailable_cases s t h with ⟨_, rfl⟩ | ⟨hnever, rfl⟩ | ⟨_, hnever, rfl⟩
  · refine .of_responded rfl rfl (fun _ => ?_) fun h => absurd rfl h
    cases s.statusAt 1 <;> rfl
  · exact .of_hungUp (es := [.busBegin devAddr]) (m := 1) (q := .begun) rfl (by decide) hnever
  · exact .of_hungUp (es := [.busBegin devAddr, .busEnd none]) (m := 2) (q := .dead) rfl (by decide) hnever

theorem execPrintByte_end {b : Byte} {s t : State} (h : execPrintByte b s = .next t) :
    CommandEnd (.printByte b) s t := by
  have hi : OneWrite (.printByte b) := ⟨rfl, rfl, rfl, le_rfl⟩
  rcases execPrintByte_cases b s t h with ⟨_, rfl⟩ | ⟨_, _, rfl⟩ | ⟨_, k, hk, _, hnever, rfl⟩
  · exact .of_error rfl nofun
  · exact .of_responded (afterAll_dataTx _ _) (hi.statusResult _) (fun _ => rfl) fun _ => rfl
  · exact .of_hungUp (afterAll_dataUnended _) hk hnever

theorem execPrintSeq_end {n : Nat} {s t : State} (h : execPrintSeq n s = .next t) : CommandEnd (.printSeq n) s t := by
  have hstatus : ∀ st, canEndWith (.printSeq n) (statusResult st) = true := fun st => by cases st <;> rfl
  rcases execPrintSeq_cases n s t h with
    ⟨_, rfl⟩ | ⟨_, _, _, rfl⟩ | ⟨_, _, k, p, hk, _, hnever, rfl⟩ | ⟨_, hshort, m, k, p, _, _, rfl⟩
  · exact .of_error rfl nofun
  · exact .finished (afterAll_dataTx _ _) (hstatus _) (fun _ => rfl) (fun _ => rfl) fun h => absurd rfl (h n)
  · obtain ⟨_, hq⟩ := exists_afterAll_take (afterAll_dataUnended (s.payload.take n)) (k + 1)
    exact .hung hq (.inl ⟨k, hk, hnever⟩) fun h => absurd rfl (h n)
  · obtain ⟨_, hq⟩ := exists_afterAll_take (afterAll_dataOpening s.payload) m
    exact .hung hq (.inr ⟨n, rfl, hshort⟩) fun h => absurd rfl (h n)

theorem okData_busyData (v : Byte) : okData .getIsBusy (busyData v) = true := by
  rw [busyData]
  cases (statusDecode v).1 <;> rfl

theorem okData_addressData (v : Byte) : okData .getAddress (addressData v) = true := by
  rw [addressData_eq_ofNat]
  simp only [okData, BitVec.toNat_ofNat, decide_eq_true_eq]
  omega

/-- Every command but `INIT` ends as `CommandEnd` says. -/
theorem exec_commandEnd {i : Instr} {s t : State} (hi : i.isCommand = true) (hinit : ∀ n, i ≠ .init n)
    (h : exec i s = .next t) : CommandEnd i s t := by
  have one : ∀ {op}, OneWrite i → emittedOpcode op = true → runCommand (instr op) s = .next t → CommandEnd i s t :=
    fun hone hop => runCommand_instr_end hone hop
  cases i with
  | init n => exact absurd rfl (hinit n)
  | isAvailable => exact execIsAvailable_end h
  | printByte b => exact execPrintByte_end h
  | printSeq n => exact execPrintSeq_end h
  | clear => exact one ⟨rfl, rfl, rfl, le_rfl⟩ rfl h
  | home => exact one ⟨rfl, rfl, rfl, le_rfl⟩ rfl h
  | setEntryMode inc shift => exact one ⟨rfl, rfl, rfl, le_rfl⟩ (emittedOpcode_entryMode inc shift) h
  | setOnOff on cursor blink => exact one ⟨rfl, rfl, rfl, le_rfl⟩ (emittedOpcode_displayCtrl on cursor blink) h
  | setScreenShift right => exact one ⟨rfl, rfl, rfl, le_rfl⟩ (emittedOpcode_shift true right) h
  | setCursorShift right => exact one ⟨rfl, rfl, rfl, le_rfl⟩ (emittedOpcode_shift false right) h
  | setDataAddress addr => exact one ⟨rfl, rfl, rfl, le_rfl⟩ (emittedOpcode_setDdram _) h
  | setDataAddressCr col row => exact execSetDataAddressCr_end h
  | getStatus => exact runCommand_statusRead_end rfl rfl (fun _ => rfl) (by decide) h
  | getIsBusy => exact runCommand_statusRead_end rfl rfl okData_busyData (by decide) h
  | getAddress => exact runCommand_statusRead_end rfl rfl okData_addressData (by decide) h
  | _ => cases hi

/-! ## How `INIT` ends -/

/-- How many transactions `INIT` makes (40_init_sequencer.md R101, R103). -/
def transactionCount : InitGrouping → Nat
  | .perInstruction => 9
  | .batched => 3

/-- The least waiting time of a successful `INIT` in milliseconds (70_reset_and_hazards.md R242). -/
def initWaitMs : InitGrouping → Nat
  | .perInstruction => 20
  | .batched => 13

/-- `k` is the index of a transaction of `INIT`. -/
def IsTransaction (g : InitGrouping) (k : BitVec 4) : Prop := 1 ≤ k.toNat ∧ k.toNat ≤ transactionCount g

/-- `INIT` is hung at `BusConfigure` or in a transaction; or a transaction has failed; or all of them are through. -/
inductive InitEnd (n : Nat) (s : State) : State → Prop
  | unconfigured (hnever : s.drawAt 0 = .never) :
      InitEnd n s ((s.progress 1 [.busConfigure]).setFsm .initializing).hungUp
  | hung {c m : Nat} {es : List Event} {q : BusPhase} {k : BitVec 4} (hevents : BusPhase.idle.afterAll es = some q)
      (hm : m < 37) (hnever : s.drawAt m = .never) (hk : IsTransaction s.grouping k) :
      InitEnd n s (((s.progress c es).setFsm .initializing).setSeq k).hungUp
  | failed {c : Nat} {es : List Event} {k : BitVec 4} (hevents : BusPhase.idle.afterAll es = some .idle)
      (hk : IsTransaction s.grouping k) : InitEnd n s ((s.progress c es).initUndone.responded .busError 0x00 k)
  | ready {c : Nat} {es : List Event} (hevents : BusPhase.idle.afterAll es = some .idle)
      (hwait : minWaitMs es = initWaitMs s.grouping) :
      InitEnd n s (((s.progress c es).initReady n).responded .ok 0x00 0)

theorem emittedOpcode_initSeq : ∀ op ∈ initSeq, emittedOpcode op = true := by decide

theorem emittedOpcode_initBatch : ∀ op ∈ initBatch, emittedOpcode op = true := by decide

theorem afterAll_settledTx {op : Byte} (hop : emittedOpcode op = true) :
    BusPhase.idle.afterAll (settledTx op) = some .idle := afterAll_instruction hop .ok

/-- Successful transactions of listed opcodes, with their waits, fit. -/
theorem afterAll_initOkEvents {ops : List Byte} (hops : ∀ op ∈ ops, emittedOpcode op = true) (k : BitVec 4) :
    BusPhase.idle.afterAll (initOkEvents ops k) = some .idle := by
  induction ops generalizing k with
  | nil => rfl
  | cons op ops ih =>
    obtain ⟨hop, hrest⟩ := List.forall_mem_cons.1 hops
    rw [initOkEvents, List.append_assoc, afterAll_append_of_eq (afterAll_settledTx hop)]
    by_cases hk : k = 1
    · rw [if_pos hk]
      exact ih hrest (k + 1)
    · rw [if_neg hk]
      exact ih hrest (k + 1)

/-- `BusConfigure`, the first transactions of the sequence and then entries that fit. -/
theorem afterAll_initSeq_take (j : Nat) (es : List Event) :
    BusPhase.idle.afterAll (.busConfigure :: (initOkEvents (initSeq.take j) 1 ++ es)) = BusPhase.idle.afterAll es :=
  afterAll_append_of_eq
    (afterAll_initOkEvents (fun op hop => emittedOpcode_initSeq op (List.mem_of_mem_take hop)) 1) es

theorem transactionIndex_toNat {j : Nat} (hj : j < 9) : (1 + BitVec.ofNat 4 j).toNat = j + 1 := by
  interval_cases j <;> rfl

theorem isTransaction_perInstruction {j : Nat} (hj : j < 9) : IsTransaction .perInstruction (1 + BitVec.ofNat 4 j) := by
  rw [IsTransaction, transactionIndex_toNat hj, transactionCount]
  omega

theorem execInit_perInstruction_end {n : Nat} {s t : State} (hg : s.grouping = .perInstruction)
    (h : execInit n s = .next t) : InitEnd n s t := by
  rcases execInit_perInstruction_cases n s t hg h with
    ⟨hnever, rfl⟩ | ⟨_, _, rfl⟩ | ⟨j, op, hop, _, _, _, rfl⟩ | ⟨j, op, k, hop, hk, _, _, hnever, rfl⟩
  · exact .unconfigured hnever
  · exact .ready rfl (hg ▸ rfl)
  · obtain ⟨hj, rfl⟩ := List.getElem?_eq_some_iff.1 hop
    have hemitted := emittedOpcode_initSeq _ (List.getElem_mem hj)
    refine .failed ?_ (hg ▸ isTransaction_perInstruction hj)
    rw [List.append_assoc, afterAll_initSeq_take, afterAll_instruction hemitted]
  · obtain ⟨hj, rfl⟩ := List.getElem?_eq_some_iff.1 hop
    have hemitted := emittedOpcode_initSeq _ (List.getElem_mem hj)
    have hj9 : j < 9 := hj
    obtain ⟨q, hq⟩ := exists_afterAll_take (afterAll_opcodeUnended (List.forall_mem_singleton.2 hemitted)) (k + 1)
    exact .hung ((afterAll_initSeq_take j _).trans hq) (by omega) hnever (hg ▸ isTransaction_perInstruction hj9)

theorem isTransaction_batched : ∀ k : BitVec 4, k = 1 ∨ k = 2 ∨ k = 3 → IsTransaction .batched k := by
  rintro k (rfl | rfl | rfl) <;> exact ⟨by decide, by decide⟩

theorem execInit_batched_end {n : Nat} {s t : State} (hg : s.grouping = .batched) (h : execInit n s = .next t) :
    InitEnd n s t := by
  have hindex : ∀ k : BitVec 4, k = 1 ∨ k = 2 ∨ k = 3 → IsTransaction s.grouping k := hg ▸ isTransaction_batched
  have hbegun : ∀ {op ops}, (∀ o ∈ op :: ops, emittedOpcode o = true) → ∀ m,
      ∃ q, BusPhase.idle.afterAll ((txUnended selIR (op :: ops)).take m) = some q :=
    fun hops m => exists_afterAll_take (afterAll_opcodeUnended hops) m
  rcases execInit_batched_cases n s t hg h with
    ⟨hnever, rfl⟩ | ⟨k, hk, _, hnever, rfl⟩ | ⟨_, _, rfl⟩ | ⟨_, k, hk, _, hnever, rfl⟩ | ⟨_, _, _, rfl⟩ |
    ⟨_, _, k, hk, _, hnever, rfl⟩ | ⟨_, _, _, _, rfl⟩ | ⟨_, _, _, _, rfl⟩
  · exact .unconfigured hnever
  · obtain ⟨q, hq⟩ := hbegun (op := 0x38) (ops := []) (by decide) (k + 1)
    exact .hung (q := q) hq (by omega) hnever (hindex 1 (by decide))
  · exact .failed rfl (hindex 1 (by decide))
  · obtain ⟨q, hq⟩ := hbegun (op := 0x39) (ops := []) (by decide) (k + 1)
    exact .hung (q := q) hq (by omega) hnever (hindex 2 (by decide))
  · exact .failed rfl (hindex 2 (by decide))
  · obtain ⟨q, hq⟩ := hbegun emittedOpcode_initBatch (k + 1)
    exact .hung (q := q) hq (by omega) hnever (hindex 3 (by decide))
  · exact .failed rfl (hindex 3 (by decide))
  · exact .ready rfl (hg ▸ rfl)

/-- `INIT` ends as `InitEnd` says, in either grouping. -/
theorem execInit_end {n : Nat} {s t : State} (h : execInit n s = .next t) : InitEnd n s t := by
  cases hg : s.grouping with
  | perInstruction => exact execInit_perInstruction_end hg h
  | batched => exact execInit_batched_end hg h

/-! ## The invariant -/

namespace State.Inv

variable {s u : State}

/-- An idle block is not in `INITIALIZING`, so its sequencer step is 0. -/
theorem not_initializing (hs : s.Inv) (hidle : s.busy = false) : s.fsm ≠ .initializing := fun h =>
  absurd (hs.initializing_busy h) (hidle ▸ Bool.false_ne_true)

/-- A response with step 0 to a command that kept the configuration. -/
theorem responded (hs : s.Inv) (hidle : s.busy = false) (hsame : SameConfiguration s u) {r : Result} {d : Byte}
    (herror : r ≠ .ok → d = 0) : (u.responded r d 0).Inv := by
  obtain ⟨hfsm, hlines, hseq⟩ := hsame
  have hni : u.fsm ≠ .initializing := hfsm ▸ hs.not_initializing hidle
  have hcode : r.code.toNat ≤ 5 := by cases r <;> decide
  exact {
    lines_legal := hlines ▸ hs.lines_legal
    ready_lines := fun h => hlines ▸ hs.ready_lines (hfsm ▸ h)
    uninit_lines := fun h => hlines ▸ hs.uninit_lines (hfsm ▸ h)
    initializing_busy := fun h => absurd h hni
    seq_idle := fun _ => hseq ▸ hs.seq_idle (hs.not_initializing hidle)
    seq_range := hseq ▸ hs.seq_range
    busy_no_response := nofun
    result_legal := fun _ => hcode
    data_of_error := fun _ hr => herror fun h => hr (h ▸ rfl)
    step_of_init_error := fun _ h => absurd rfl h
    step_range := fun _ => Nat.zero_le 9 }

/-- A hang that kept the configuration. -/
theorem hungUp (hs : s.Inv) (hidle : s.busy = false) (hsame : SameConfiguration s u) : u.hungUp.Inv := by
  obtain ⟨hfsm, hlines, hseq⟩ := hsame
  exact {
    lines_legal := hlines ▸ hs.lines_legal
    ready_lines := fun h => hlines ▸ hs.ready_lines (hfsm ▸ h)
    uninit_lines := fun h => hlines ▸ hs.uninit_lines (hfsm ▸ h)
    initializing_busy := fun _ => rfl
    seq_idle := fun _ => hseq ▸ hs.seq_idle (hs.not_initializing hidle)
    seq_range := hseq ▸ hs.seq_range
    busy_no_response := fun _ => rfl
    result_legal := nofun
    data_of_error := nofun
    step_of_init_error := nofun
    step_range := nofun }

/-- The trace, the draws and the host's offers are no part of the invariant. -/
theorem progress (hs : s.Inv) (n : Nat) (es : List Event) : (s.progress n es).Inv := { hs with }

theorem setHost (hs : s.Inv) (v : List HostAction) : (s.setHost v).Inv := { hs with }

theorem setStage (hs : s.Inv) (v : Option (ByteFormat × Byte)) : (s.setStage v).Inv := { hs with }

/-- A hung `INIT` keeps the old line count. -/
theorem initializing (hs : s.Inv) {c : Nat} {es : List Event} {k : BitVec 4} (hk : k.toNat ≤ 9) :
    (((s.progress c es).setFsm .initializing).setSeq k).hungUp.Inv where
  lines_legal := hs.lines_legal
  ready_lines := nofun
  uninit_lines := nofun
  initializing_busy := fun _ => rfl
  seq_idle := fun h => absurd rfl h
  seq_range := hk
  busy_no_response := fun _ => rfl
  result_legal := nofun
  data_of_error := nofun
  step_of_init_error := nofun
  step_range := nofun

end State.Inv

theorem inv_blockReset (s : State) : (blockReset s).Inv where
  lines_legal := .inl rfl
  ready_lines := nofun
  uninit_lines := fun _ => rfl
  initializing_busy := nofun
  seq_idle := fun _ => rfl
  seq_range := Nat.zero_le 9
  busy_no_response := nofun
  result_legal := nofun
  data_of_error := nofun
  step_of_init_error := nofun
  step_range := nofun

theorem inv_initUndone (s : State) {k : BitVec 4} (hk : k.toNat ≤ 9) :
    (s.initUndone.responded .busError 0x00 k).Inv where
  lines_legal := .inl rfl
  ready_lines := nofun
  uninit_lines := fun _ => rfl
  initializing_busy := nofun
  seq_idle := fun _ => rfl
  seq_range := Nat.zero_le 9
  busy_no_response := nofun
  result_legal := fun _ => (by decide : 3 ≤ 5)
  data_of_error := fun _ _ => rfl
  step_of_init_error := fun _ _ => ⟨rfl, rfl⟩
  step_range := fun _ => hk

theorem inv_initReady (s : State) {n : Nat} (hn : n = 1 ∨ n = 2) :
    ((s.initReady n).responded .ok 0x00 0).Inv where
  lines_legal := hn.elim (fun h => .inr (.inl (congrArg some h))) fun h => .inr (.inr (congrArg some h))
  ready_lines := nofun
  uninit_lines := nofun
  initializing_busy := nofun
  seq_idle := fun _ => rfl
  seq_range := Nat.zero_le 9
  busy_no_response := nofun
  result_legal := fun _ => (by decide : 0 ≤ 5)
  data_of_error := fun _ _ => rfl
  step_of_init_error := fun _ h => absurd rfl h
  step_range := fun _ => Nat.zero_le 9

theorem IsTransaction.le_nine {g : InitGrouping} {k : BitVec 4} (h : IsTransaction g k) : k.toNat ≤ 9 :=
  h.2.trans (by cases g <;> decide)

theorem PrimitiveEnd.inv {s t : State} (h : PrimitiveEnd s t) (hs : s.Inv) (hidle : s.busy = false) : t.Inv := by
  cases h with
  | done n es => exact hs.progress n es
  | hung n es => exact hs.hungUp hidle ⟨rfl, rfl, rfl⟩

theorem CommandEnd.inv {i : Instr} {s t : State} (h : CommandEnd i s t) (hs : s.Inv) (hidle : s.busy = false) :
    t.Inv := by
  cases h with
  | @finished n es p _ _ _ _ _ herror _ =>
    exact hs.responded (u := (s.progress n es).setPayload p) hidle ⟨rfl, rfl, rfl⟩ herror
  | hung _ _ _ => exact hs.hungUp hidle ⟨rfl, rfl, rfl⟩

theorem InitEnd.inv {n : Nat} {s t : State} (h : InitEnd n s t) (hs : s.Inv) (hn : n = 1 ∨ n = 2) : t.Inv := by
  cases h with
  | unconfigured _ => exact hs.initializing (k := s.seq) hs.seq_range
  | hung _ _ _ hk => exact hs.initializing hk.le_nine
  | failed _ hk => exact inv_initUndone _ hk.le_nine
  | ready _ _ => exact inv_initReady _ hn

/-- A decoded instruction run by an idle block keeps the invariant. -/
theorem exec_keeps_inv {c : CodeWord} {i : Instr} {s t : State} (hd : decode c = .instr i) (hs : s.Inv)
    (hidle : s.busy = false) (h : exec i s = .next t) : t.Inv := by
  cases hi : i.isCommand with
  | false => exact (exec_primitiveEnd hi h).inv hs hidle
  | true =>
    by_cases hinit : ∃ n, i = .init n
    · obtain ⟨n, rfl⟩ := hinit
      exact (execInit_end h).inv hs (lineCount_of_decode_init hd)
    · exact (exec_commandEnd hi (fun n hn => hinit ⟨n, hn⟩) h).inv hs hidle

/-- Settles O15: reset is the block reset of itself. -/
theorem resetSatisfiesTheInvariant : Obligations.ResetSatisfiesTheInvariant := inv_blockReset State.reset

/-- Settles O16: by what a step can do; a decoded instruction by the three ways instructions end. -/
theorem everyStepKeepsTheInvariant : Obligations.EveryStepKeepsTheInvariant := by
  unfold Obligations.EveryStepKeepsTheInvariant
  intro s t hs h
  rcases step_cases s with ⟨_, _, he⟩ | ⟨_, _, he⟩ | ⟨hidle, _, _, _, _, hd, he⟩ | ⟨_, _, _, _, _, _, he⟩ |
    ⟨_, _, _, he⟩ | ⟨_, _, _, _, he⟩ | ⟨hidle, _, _, _, rest, _, _, hd, he⟩ | ⟨hidle, _, _, _, rest, _, _, _, he⟩ <;>
    rw [he] at h
  · cases h; exact inv_blockReset _
  · cases h; exact hs
  · exact exec_keeps_inv hd (hs.setStage none) hidle h
  · cases h
  · cases h; exact hs
  · cases h; exact inv_blockReset _
  · exact exec_keeps_inv hd (hs.setHost rest) hidle h
  · cases h; exact (hs.setHost rest).responded hidle ⟨rfl, rfl, rfl⟩ fun _ => rfl

/-! ## What a step emits -/

/-- The entries fit an idle bus, and only a busy block is left inside a transaction. -/
def EmitsTransactions (s t : State) : Prop :=
  ∃ (events : List Event) (p : BusPhase), t.trace = s.trace ++ events ∧ BusPhase.idle.afterAll events = some p ∧
    (t.busy = false → p = .idle)

theorem EmitsTransactions.of_trace_eq {s t : State} (h : t.trace = s.trace) : EmitsTransactions s t :=
  ⟨[], .idle, by rw [h, List.append_nil], rfl, fun _ => rfl⟩

theorem CommandEnd.emitsTransactions {i : Instr} {s t : State} (h : CommandEnd i s t) : EmitsTransactions s t := by
  cases h with
  | finished hevents _ _ _ _ => exact ⟨_, _, rfl, hevents, fun _ => rfl⟩
  | hung hevents _ _ => exact ⟨_, _, rfl, hevents, nofun⟩

theorem InitEnd.emitsTransactions {n : Nat} {s t : State} (h : InitEnd n s t) : EmitsTransactions s t := by
  cases h with
  | unconfigured _ => exact ⟨[.busConfigure], .idle, rfl, rfl, nofun⟩
  | hung hevents _ _ _ => exact ⟨_, _, rfl, hevents, nofun⟩
  | failed hevents _ => exact ⟨_, _, rfl, hevents, fun _ => rfl⟩
  | ready hevents _ => exact ⟨_, _, rfl, hevents, fun _ => rfl⟩

theorem exec_emitsTransactions {i : Instr} {s t : State} (hi : i.isCommand = true) (h : exec i s = .next t) :
    EmitsTransactions s t := by
  by_cases hinit : ∃ n, i = .init n
  · obtain ⟨n, rfl⟩ := hinit
    exact (execInit_end h).emitsTransactions
  · exact (exec_commandEnd hi (fun n hn => hinit ⟨n, hn⟩) h).emitsTransactions

/-- Settles O17: with no byte at the stage a step runs a command or adds nothing to the trace. -/
theorem everyStepEmitsWholeTransactions : Obligations.EveryStepEmitsWholeTransactions := by
  unfold Obligations.EveryStepEmitsWholeTransactions
  intro s t hstage h
  rcases step_cases s with ⟨_, _, he⟩ | ⟨_, _, he⟩ | ⟨_, _, _, _, hs, _⟩ | ⟨_, _, _, _, hs, _⟩ |
    ⟨_, _, _, he⟩ | ⟨_, _, _, _, he⟩ | ⟨_, _, _, _, rest, _, _, hd, he⟩ | ⟨_, _, _, _, _, _, _, _, he⟩
  · cases he.symm.trans h; exact EmitsTransactions.of_trace_eq rfl
  · cases he.symm.trans h; exact EmitsTransactions.of_trace_eq rfl
  · cases hstage.symm.trans hs
  · cases hstage.symm.trans hs
  · cases he.symm.trans h; exact EmitsTransactions.of_trace_eq rfl
  · cases he.symm.trans h; exact EmitsTransactions.of_trace_eq rfl
  · exact exec_emitsTransactions (s := s.setHost rest) (isCommand_of_decode hd) (he.symm.trans h)
  · cases he.symm.trans h; exact EmitsTransactions.of_trace_eq rfl

end Sys2Proof.Machine

/-! Proofs: what every instruction keeps, how every command responds, and what a run adds to the trace.

All of it is read off the ways an instruction ends: `PrimitiveEnd`, `CommandEnd`, `InitEnd`. -/

namespace Sys2Proof.Machine

/-! ## Steps -/

/-- Settles O10: the two steps that take a block reset, and the fields as it leaves them. -/
theorem blockResetIsTaken : Obligations.BlockResetIsTaken := by
  unfold Obligations.BlockResetIsTaken
  refine ⟨fun s hbusy hoffered => ?_, fun s rest hidle hstage hhost => ?_⟩
  · refine ⟨blockReset (s.setHost (s.host.erase .blockReset)), ?_, rfl, rfl, rfl, rfl, rfl, rfl, rfl⟩
    simp [step, fetch, hbusy, hoffered]
  · refine ⟨blockReset (s.setHost rest), ?_, rfl, rfl, rfl, rfl, rfl, rfl, rfl⟩
    simp [step, fetch, hidle, hstage, hhost]

/-- Settles O11: what stands first at the port, or at the stage, is what the step takes up. -/
theorem stepRunsTheDecodedInstruction : Obligations.StepRunsTheDecodedInstruction := by
  unfold Obligations.StepRunsTheDecodedInstruction
  refine ⟨fun s w len rest i hidle hstage hhost hdecode => ?_, fun s f b i hidle hstage hdecode => ?_⟩
  · show step s = exec i (s.setHost rest)
    simp [step, fetch, hidle, hstage, hhost, hdecode]
  · show step s = exec i (s.setStage none)
    simp [step, fetch, hidle, hstage, hdecode]

/-- Settles O12. -/
theorem busyBlockAcceptsNothing : Obligations.BusyBlockAcceptsNothing := fun _ => step_of_busy

/-- Settles O14: of all that a step can do, the refusal of an unlisted byte alone has no next state. -/
theorem unlistedByteIsTheOnlyRefusal : Obligations.UnlistedByteIsTheOnlyRefusal := by
  unfold Obligations.UnlistedByteIsTheOnlyRefusal
  refine ⟨fun s f b r hidle hstage hdecode => by simp [step, fetch, hidle, hstage, hdecode], fun s => ?_⟩
  rcases step_cases s with ⟨_, _, he⟩ | ⟨_, _, he⟩ | ⟨_, _, _, i, _, _, he⟩ | ⟨hidle, f, b, r, hstage, hdecode, he⟩ |
    ⟨_, _, _, he⟩ | ⟨_, _, _, _, he⟩ | ⟨_, _, _, _, rest, i, _, _, he⟩ | ⟨_, _, _, _, _, _, _, _, he⟩
  · exact .inl ⟨_, he⟩
  · exact .inl ⟨_, he⟩
  · obtain ⟨t, ht⟩ := exec_next i (s.setStage none)
    exact .inl ⟨t, he.trans ht⟩
  · exact .inr ⟨f, b, r, hidle, hstage, hdecode, he⟩
  · exact .inl ⟨_, he⟩
  · exact .inl ⟨_, he⟩
  · obtain ⟨t, ht⟩ := exec_next i (s.setHost rest)
    exact .inl ⟨t, he.trans ht⟩
  · exact .inl ⟨_, he⟩

/-! ## What an instruction keeps -/

/-- Settles O19. -/
theorem onlyInitChangesTheConfiguration : Obligations.OnlyInitChangesTheConfiguration :=
  fun _ _ _ => exec_sameConfiguration

/-- The parameter, the host's offers and the byte stage are as before. -/
def SameInputs (s t : State) : Prop := t.grouping = s.grouping ∧ t.host = s.host ∧ t.stage = s.stage

/-- The payload and the count of free values are as before. -/
def SamePayload (s t : State) : Prop := t.payload = s.payload ∧ t.freeCount = s.freeCount

theorem PrimitiveEnd.sameInputs {s t : State} (h : PrimitiveEnd s t) : SameInputs s t ∧ SamePayload s t := by
  cases h <;> exact ⟨⟨rfl, rfl, rfl⟩, rfl, rfl⟩

theorem InitEnd.sameInputs {n : Nat} {s t : State} (h : InitEnd n s t) : SameInputs s t ∧ SamePayload s t := by
  cases h <;> exact ⟨⟨rfl, rfl, rfl⟩, rfl, rfl⟩

theorem CommandEnd.sameInputs {i : Instr} {s t : State} (h : CommandEnd i s t) :
    SameInputs s t ∧ ((∀ n, i ≠ .printSeq n) → SamePayload s t) := by
  cases h with
  | finished _ _ _ _ hpayload => exact ⟨⟨rfl, rfl, rfl⟩, fun hi => ⟨hpayload hi, rfl⟩⟩
  | hung _ _ hpayload => exact ⟨⟨rfl, rfl, rfl⟩, hpayload⟩

theorem exec_sameInputs {i : Instr} {s t : State} (h : exec i s = .next t) :
    SameInputs s t ∧ ((∀ n, i ≠ .printSeq n) → SamePayload s t) := by
  cases hi : i.isCommand with
  | false =>
    obtain ⟨hinputs, hpayload⟩ := (exec_primitiveEnd hi h).sameInputs
    exact ⟨hinputs, fun _ => hpayload⟩
  | true =>
    by_cases hinit : ∃ n, i = .init n
    · obtain ⟨n, rfl⟩ := hinit
      obtain ⟨hinputs, hpayload⟩ := (execInit_end h).sameInputs
      exact ⟨hinputs, fun _ => hpayload⟩
    · exact (exec_commandEnd hi (fun n hn => hinit ⟨n, hn⟩) h).sameInputs

/-- Settles O20: none of the ways an instruction ends writes an input, and `PRINT_SEQ`'s alone the payload. -/
theorem instructionsKeepTheInputs : Obligations.InstructionsKeepTheInputs := by
  unfold Obligations.InstructionsKeepTheInputs
  intro i s t h
  obtain ⟨⟨hgrouping, hhost, hstage⟩, hpayload⟩ := exec_sameInputs h
  exact ⟨hgrouping, hhost, hstage, hpayload⟩

/-! ## How a command responds -/

/-- Settles O22: a busy block has no response after a command, and only a block reset makes it step. -/
theorem hungCommandStaysBusyWithNoResponse : Obligations.HungCommandStaysBusyWithNoResponse := by
  unfold Obligations.HungCommandStaysBusyWithNoResponse
  intro i s t hi h hbusy
  have hresponse := (exec_respondsUnlessBusy hi h).response_eq_none_iff_busy.2 hbusy
  exact ⟨(response_eq_none_iff t).1 hresponse, hresponse, by simp [State.cmdReady, hbusy], step_of_busy hbusy⟩

/-- With every event completing and the payload there, nothing can keep a command from finishing. -/
theorem not_canHang {i : Instr} {s : State} (hc : s.completes (eventBound i))
    (hpayload : ∀ n, i = .printSeq n → n ≤ s.payload.length) : ¬ s.CanHang i := by
  rintro (⟨k, hk, hnever⟩ | ⟨n, hn, hshort⟩)
  · exact hc k hk hnever
  · exact absurd (hpayload n hn) (by omega)

/-- A command that finishes is not left in `INITIALIZING`. -/
def State.Finished (s t : State) : Prop :=
  t.busy = false ∧ t.rspValid = true ∧ (s.fsm ≠ .initializing → t.fsm ≠ .initializing)

theorem CommandEnd.finished_of_not_canHang {i : Instr} {s t : State} (h : CommandEnd i s t) (hcan : ¬ s.CanHang i) :
    s.Finished t := by
  cases h with
  | finished _ _ _ _ _ => exact ⟨rfl, rfl, id⟩
  | hung _ hcan' _ => exact absurd hcan' hcan

theorem InitEnd.finished_of_completes {n : Nat} {s t : State} (h : InitEnd n s t) (hc : s.completes 37) :
    s.Finished t := by
  cases h with
  | unconfigured hnever => exact absurd hnever (hc 0 (by decide))
  | hung _ hm hnever _ => exact absurd hnever (hc _ hm)
  | failed _ _ => exact ⟨rfl, rfl, nofun⟩
  | ready _ _ => exact ⟨rfl, rfl, nofun⟩

/-- Settles O21: the ends that are hung name what failed the command. -/
theorem commandFinishesWhenEverythingAnswers : Obligations.CommandFinishesWhenEverythingAnswers := by
  unfold Obligations.CommandFinishesWhenEverythingAnswers
  intro i s hi hc hpayload
  obtain ⟨t, ht⟩ := exec_next i s
  refine ⟨t, ht, ?_⟩
  by_cases hinit : ∃ n, i = .init n
  · obtain ⟨n, rfl⟩ := hinit
    exact (execInit_end ht).finished_of_completes hc
  · exact (exec_commandEnd hi (fun n hn => hinit ⟨n, hn⟩) ht).finished_of_not_canHang (not_canHang hc hpayload)

/-- What a finished command may respond (60_exceptions.md R200, 30_encoding.md R91, 40_init_sequencer.md R105). -/
def LegalResponse (i : Instr) (g : InitGrouping) (t : State) : Prop :=
  t.rspValid = true ∧ ∃ r : Result, t.rspResult = r.code ∧ canEndWith i r = true ∧
    (r = .ok → okData i t.rspData = true) ∧ (r ≠ .ok → t.rspData = 0) ∧
    (t.rspStep ≠ 0 ↔ r = .busError ∧ ∃ n, i = .init n) ∧ t.rspStep.toNat ≤ transactionCount g

theorem CommandEnd.legalResponse {i : Instr} {s t : State} (h : CommandEnd i s t) (hinit : ¬ ∃ n, i = .init n)
    (hidle : t.busy = false) : LegalResponse i s.grouping t := by
  cases h with
  | @finished _ _ _ r _ _ hresult hok herror _ =>
    exact ⟨rfl, r, rfl, hresult, hok, herror, iff_of_false (fun h => h rfl) fun h => hinit h.2, Nat.zero_le _⟩
  | hung _ _ _ => cases hidle

theorem IsTransaction.ne_zero {g : InitGrouping} {k : BitVec 4} (h : IsTransaction g k) : k ≠ 0 := by
  rintro rfl
  exact absurd h.1 (by decide)

theorem InitEnd.legalResponse {n : Nat} {s t : State} (h : InitEnd n s t) (hidle : t.busy = false) :
    LegalResponse (.init n) s.grouping t := by
  cases h with
  | unconfigured _ => cases hidle
  | hung _ _ _ _ => cases hidle
  | failed _ hk =>
    exact ⟨rfl, .busError, rfl, rfl, nofun, fun _ => rfl, iff_of_true hk.ne_zero ⟨rfl, n, rfl⟩, hk.2⟩
  | ready _ _ =>
    exact ⟨rfl, .ok, rfl, rfl, fun _ => rfl, fun h => absurd rfl h, iff_of_false (fun h => h rfl) nofun, Nat.zero_le _⟩

/-- Settles O23: the response of each end that is not hung. -/
theorem finishedCommandHasALegalResponse : Obligations.FinishedCommandHasALegalResponse := by
  unfold Obligations.FinishedCommandHasALegalResponse
  intro i s t hi h hidle
  by_cases hinit : ∃ n, i = .init n
  · obtain ⟨n, rfl⟩ := hinit
    exact (execInit_end h).legalResponse hidle
  · exact (exec_commandEnd hi (fun n hn => hinit ⟨n, hn⟩) h).legalResponse hinit hidle

/-! ## `INIT` -/

/-- Settles O29: the mode, the lines, the step and the response of each end. -/
theorem initEndsReadyUninitOrHung : Obligations.InitEndsReadyUninitOrHung := by
  unfold Obligations.InitEndsReadyUninitOrHung
  intro n s t h
  cases execInit_end h with
  | unconfigured _ => exact .inl ⟨rfl, rfl, rfl, .inl ⟨rfl, rfl⟩⟩
  | hung _ _ _ hk => exact .inl ⟨rfl, rfl, rfl, .inr hk⟩
  | failed _ hk => exact .inr (.inr ⟨rfl, rfl, rfl, rfl, rfl, hk⟩)
  | ready _ _ => exact .inr (.inl ⟨rfl, rfl, rfl, rfl, rfl, rfl⟩)

/-- Settles O34: of the ends that are not hung, success alone has the result code 0. -/
theorem successfulInitWaitsAtLeast : Obligations.SuccessfulInitWaitsAtLeast := by
  unfold Obligations.SuccessfulInitWaitsAtLeast
  intro n s t h hidle hresult
  cases execInit_end h with
  | unconfigured _ => cases hidle
  | hung _ _ _ _ => cases hidle
  | failed _ _ => cases hresult
  | @ready c es _ hwait =>
    have hadded : List.drop s.trace.length (s.trace ++ es) = es := List.drop_left
    refine (congrArg minWaitMs hadded).trans (hwait.trans ?_)
    cases s.grouping <;> rfl

/-! ### The line count -/

/-- Sequencing two continuations that end alike. -/
theorem bind_eqButLines {α β : Type} (r : Run α) {next next' : α → State → Run β}
    (h : ∀ a s, (next a s).EqButLines (next' a s)) : (r.bind next).EqButLines (r.bind next') := by
  cases r with
  | done a s => exact h a s
  | hung s => exact .hung ⟨s.lines, rfl⟩

theorem Run.EqButLines.refl {α : Type} (r : Run α) : r.EqButLines r := by
  cases r with
  | done a s => exact .done a ⟨s.lines, rfl⟩
  | hung s => exact .hung ⟨s.lines, rfl⟩

theorem initDone_eqButLines (m n : Nat) (s : State) : (initDone m s).EqButLines (initDone n s) :=
  .done () ⟨some n, rfl⟩

theorem initSteps_eqButLines (m n : Nat) (ops : List Byte) (k : BitVec 4) (s : State) :
    (initSteps m ops k s).EqButLines (initSteps n ops k s) := by
  induction ops generalizing k s with
  | nil => exact initDone_eqButLines m n _
  | cons op ops ih =>
    refine bind_eqButLines _ fun status s => ?_
    cases status with
    | busError => exact .refl _
    | ok => exact ih _ _

theorem initBatched_eqButLines (m n : Nat) (s : State) : (initBatched m s).EqButLines (initBatched n s) := by
  refine bind_eqButLines _ fun first s => ?_
  cases first with
  | busError => exact .refl _
  | ok =>
    refine bind_eqButLines _ fun second s => ?_
    cases second with
    | busError => exact .refl _
    | ok =>
      refine bind_eqButLines _ fun third s => ?_
      cases third with
      | busError => exact .refl _
      | ok => exact initDone_eqButLines m n _

theorem initCommand_eqButLines (m n : Nat) (s : State) : (initCommand m s).EqButLines (initCommand n s) := by
  refine bind_eqButLines _ fun _ s => ?_
  cases hg : s.grouping with
  | perInstruction => exact initSteps_eqButLines m n initSeq 1 s
  | batched => exact initBatched_eqButLines m n s

/-- Settles O32: the operand is read where `INIT` stores it and nowhere else. -/
theorem lineCountChangesOnlyTheRecordedLines : Obligations.LineCountChangesOnlyTheRecordedLines := by
  unfold Obligations.LineCountChangesOnlyTheRecordedLines
  exact fun s => ⟨_, _, rfl, rfl, (initCommand_eqButLines 1 2 (accept s)).state.restore⟩

/-- Settles O33: `INIT` writes the mode before it reads anything. -/
theorem initRunsAlikeFromEveryMode : Obligations.InitRunsAlikeFromEveryMode := fun _ _ _ => rfl

/-! ## The trace of a run -/

/-- What an instruction emits is added at the end of the trace. -/
theorem exec_appends {i : Instr} {s t : State} (h : exec i s = .next t) : ∃ es, t.trace = s.trace ++ es := by
  by_cases hinit : ∃ n, i = .init n
  · obtain ⟨n, rfl⟩ := hinit
    obtain ⟨es, htrace, _⟩ := execInit_events h
    exact ⟨_, htrace⟩
  · obtain ⟨es, htrace, _⟩ := exec_addsNoConfigureOrGap (fun n hn => hinit ⟨n, hn⟩) h
    exact ⟨es, htrace⟩

/-- So the triple of an accepted command holds all that its step adds to the trace. -/
theorem trace_of_accepted {s t : State} {c : Word × Word} (hacc : s.accepted = some c) (h : step s = .next t) :
    t.trace = s.trace ++ (observation c s t).events := by
  have happends : ∃ es, t.trace = s.trace ++ es := by
    obtain ⟨rest, _, _, _, ⟨i, _, _, hstep⟩ | ⟨r, _, hstep⟩⟩ := step_of_accepted hacc
    · exact exec_appends (s := s.setHost rest) (hstep.symm.trans h)
    · cases hstep.symm.trans h
      exact ⟨[], (List.append_nil _).symm⟩
  obtain ⟨es, hes⟩ := happends
  simp [observation, hes]

/-- Settles O24: by induction on the number of commands. -/
theorem traceOfARunIsTheTracesOfItsCommands : Obligations.TraceOfARunIsTheTracesOfItsCommands := by
  unfold Obligations.TraceOfARunIsTheTracesOfItsCommands
  intro n
  induction n with
  | zero => simp
  | succ n ih =>
    intro s
    cases hacc : s.accepted with
    | none => simp [observe_not_accepted hacc]
    | some c =>
      obtain ⟨t, hstep, _⟩ := step_of_accepted_respondsUnlessBusy hacc
      rw [observe_accepted hacc hstep, ih t, trace_of_accepted hacc hstep, List.flatMap_cons, List.append_assoc]

end Sys2Proof.Machine

/-! Proofs: the exact trace and state that an instruction leaves, where the transport's answers are known.

The case lemmas of `exec` say how an instruction can end; what is known of the draws leaves one of the cases. The first
part counts the draws that entries of the trace stand for, and compares two places at which a command hangs. -/

namespace Sys2Proof.Machine

/-! ## The draws behind the trace -/

theorem State.afterEvents_eq_of_countP {es : List Event} {n : Nat} (h : es.countP Event.isTransport = n) (s : State) :
    s.afterEvents es = s.progress n es := h ▸ s.afterEvents_eq_progress es

/-- Every entry of a write transaction is a transport event, so each entry of a first part uses a draw. -/
theorem countP_txUnended_take {sel : Byte} {p : List Byte} {h : Nat} (hh : h < p.length + 3) :
    ((txUnended sel p).take (h + 1)).countP Event.isTransport = h + 1 := by
  have hall : ∀ e ∈ txUnended sel p, e.isTransport = true := by
    intro e he
    simp only [txUnended, List.mem_append, List.mem_cons, List.mem_map, List.not_mem_nil, or_false] at he
    rcases he with ((rfl | rfl) | ⟨b, _, rfl⟩) | rfl <;> rfl
  have hlen : ((txUnended sel p).take (h + 1)).length = h + 1 := by simp; omega
  exact (List.countP_eq_length.2 fun e he => hall e (List.mem_of_mem_take he)).trans hlen

/-- The first transactions of the sequence, as `initOkEvents` lists them and as R102 does. -/
theorem initOkEvents_initSeq_take {k : Nat} (hk : k ≤ 9) :
    initOkEvents (initSeq.take k) 1 = (List.range k).flatMap initTxOk := by
  interval_cases k <;> rfl

theorem countP_initTxOk (j : Nat) : (initTxOk j).countP Event.isTransport = 4 := by
  by_cases hj : j = 0
  · subst hj; rfl
  · rw [initTxOk, if_neg hj]; rfl

theorem countP_flatMap_initTxOk (k : Nat) : ((List.range k).flatMap initTxOk).countP Event.isTransport = 4 * k := by
  rw [List.countP_flatMap, funext (f := List.countP Event.isTransport ∘ initTxOk) countP_initTxOk]
  simp [Nat.mul_comm]

/-- The event after `q` others is the first that never completes. -/
def State.HangsAt (s : State) (q : Nat) : Prop := s.completes q ∧ s.drawAt q = .never

namespace State.HangsAt

variable {s : State} {q : Nat}

theorem le_of_never (h : s.HangsAt q) {m : Nat} (hm : s.drawAt m = .never) : q ≤ m :=
  Nat.le_of_not_lt fun hlt => h.1 m hlt hm

theorem le_of_completes (h : s.HangsAt q) {c : Nat} (hc : s.completes c) : c ≤ q :=
  Nat.le_of_not_lt fun hlt => hc q hlt h.2

theorem eq_of_hangsAt (h : s.HangsAt q) {m : Nat} (hm : s.HangsAt m) : q = m :=
  Nat.le_antisymm (h.le_of_never hm.2) (hm.le_of_never h.2)

end State.HangsAt

/-! ## Bytes run by themselves -/

theorem functionSetOpcode_eq_ofNat (dl n dh ext : Bool) : functionSetOpcode dl n dh ext =
    BitVec.ofNat 8 (0x20 + 16 * dl.toNat + 8 * n.toNat + 4 * dh.toNat + ext.toNat) := by
  cases dl <;> cases n <;> cases dh <;> cases ext <;> rfl

theorem setCgramOpcode_eq_ofNat (a : BitVec 6) : setCgramOpcode a = BitVec.ofNat 8 (0x40 + a.toNat) := by
  have hsum : 0x40 + a.toNat = 0x40 ||| a.toNat := Nat.two_pow_add_eq_or_of_lt (i := 6) a.isLt 1
  rw [setCgramOpcode, hsum, BitVec.ofNat_or, BitVec.ofNat_toNat]
  rfl

theorem setDdramOpcode_setWidth_eq_ofNat (a : Addr7) :
    setDdramOpcode (a.setWidth 8) = BitVec.ofNat 8 (0x80 + a.toNat) := by
  rw [setDdramOpcode_eq_ofNat, BitVec.toNat_setWidth_of_le (by decide), Nat.mod_eq_of_lt a.isLt]

theorem statusEncode_eq_ofNat (busy : Bool) (a : Addr7) :
    statusEncode busy a = BitVec.ofNat 8 (128 * busy.toNat + a.toNat) := by
  cases busy with
  | true => exact setDdramOpcode_setWidth_eq_ofNat a
  | false =>
    have hflag : bitAt false 7 = 0#8 := rfl
    rw [statusEncode, hflag, BitVec.zero_or, Bool.toNat_false, Nat.mul_zero, Nat.zero_add, BitVec.ofNat_toNat]

/-- An instruction byte of either table is `WriteInstruction` of its opcode (45_transmit_primitives.md R173). -/
theorem exec_eq_runPrimitive_writeInstruction {i : Instr} {op : Nat} (hop : wordOpcode i = some op) (s : State) :
    exec i s = runPrimitive (writeInstruction (BitVec.ofNat 8 op)) s := by
  cases i <;> simp only [wordOpcode, Option.some.injEq, reduceCtorEq] at hop <;> subst hop
  case lcdEntryModeSet inc shift => rw [← entryModeOpcode_eq_ofNat]; rfl
  case lcdDisplayControl on cursor blink => rw [← displayCtrlOpcode_eq_ofNat]; rfl
  case lcdCursorDisplayShift screen right => rw [← shiftOpcode_eq_ofNat]; rfl
  case lcdFunctionSet dl n dh ext => rw [← functionSetOpcode_eq_ofNat]; rfl
  case lcdSetCgramAddress addr => rw [← setCgramOpcode_eq_ofNat]; rfl
  case lcdSetDdramAddress addr => rw [← setDdramOpcode_setWidth_eq_ofNat]; rfl
  all_goals rfl

/-- Settles O48. -/
theorem instructionByteIsTransmitted : Obligations.InstructionByteIsTransmitted := by
  unfold Obligations.InstructionByteIsTransmitted
  intro i op s hop hc
  rw [exec_eq_runPrimitive_writeInstruction hop, runPrimitive, writeInstruction_done hc]
  rfl

/-- Settles O49: each of the three is `Tx` of a selector and at most one byte. -/
theorem selectorAndDataBytesAreTransmitted : Obligations.SelectorAndDataBytesAreTransmitted := by
  unfold Obligations.SelectorAndDataBytesAreTransmitted
  have htx : ∀ (sel : Byte) (p : List Byte) (s : State), s.completes (p.length + 3) →
      runPrimitive (tx sel p) s = .next (s.afterEvents (txEvents sel p (s.statusAt (p.length + 2)))) := by
    intro sel p s hc
    rw [runPrimitive, tx_done hc, State.afterEvents_eq_of_countP (txEvents_countP ..)]
    rfl
  exact ⟨fun s hc => htx selIR [] s hc, fun s hc => htx selDR [] s hc, fun d s hc => htx selDR [d] s hc⟩

/-- Settles O50: a read answered with the byte that flag and address make. -/
theorem statusByteIsRead : Obligations.StatusByteIsRead := by
  unfold Obligations.StatusByteIsRead
  intro busy addr s hc
  rw [← statusEncode_eq_ofNat]
  exact congrArg (fun r => Host.Outcome.next (primitiveState r)) (busRequestAnswered_done (hc 0 (by decide)) _ _)

/-! ## The data commands -/

theorem execPrintByte_done {b : Byte} {s : State} (hready : s.fsm = .ready) (hc : s.completes 4) :
    execPrintByte b s = .next ((s.progress 4 (txEvents selDR [b] (s.statusAt 3))).responded
      (statusResult (s.statusAt 3)) 0x00 0) := by
  rcases execPrintByte_cases b s _ rfl with ⟨hnot, _⟩ | ⟨_, _, ht⟩ | ⟨_, h, hl, _, hnever, _⟩
  · exact absurd hready hnot
  · exact congrArg _ ht
  · exact absurd hnever (hc h hl)

/-- Settles O36. -/
theorem printByteSendsItsByte : Obligations.PrintByteSendsItsByte := fun _ _ => execPrintByte_done

/-- Settles O37: the transaction of `n` bytes uses `n + 3` draws. -/
theorem printSeqSendsThePayloadInOneTransaction : Obligations.PrintSeqSendsThePayloadInOneTransaction := by
  unfold Obligations.PrintSeqSendsThePayloadInOneTransaction
  intro n s hready hn hc
  have hcount : ∀ st, (txEvents 0x40 (s.payload.take n) st).countP Event.isTransport = n + 3 := fun st => by
    rw [txEvents_countP, List.length_take_of_le hn]
  rw [State.afterEvents_eq_of_countP (hcount _)]
  exact execPrintSeq_done hready hn hc

/-- Settles O39: the one end that a short payload leaves. -/
theorem stalledPayloadSendsPartOfTheTransaction : Obligations.StalledPayloadSendsPartOfTheTransaction := by
  unfold Obligations.StalledPayloadSendsPartOfTheTransaction
  intro n s hready hshort
  obtain ⟨t, ht⟩ := exec_next (.printSeq n) s
  rcases execPrintSeq_cases n s t ht with
    ⟨hnot, _⟩ | ⟨_, hn, _⟩ | ⟨_, hn, _⟩ | ⟨_, _, m, k, p, _, hp, rfl⟩
  · exact absurd hready hnot
  · omega
  · omega
  · exact ⟨_, m, ht, ⟨rfl, rfl, rfl⟩, rfl, hp⟩

/-- Settles O40: both commands send the data transaction of `[b]` and leave the payload `rest`. -/
theorem printSeqOfOneByteIsPrintByte : Obligations.PrintSeqOfOneByteIsPrintByte := by
  unfold Obligations.PrintSeqOfOneByteIsPrintByte
  intro b rest s hc hready
  have hseq := execPrintSeq_done (n := 1) (s := { s with payload := b :: rest }) hready (by simp) hc
  have hbyte := execPrintByte_done (b := b) (s := { s with payload := rest }) hready hc
  exact hseq.trans hbyte.symm

/-! ## The instruction commands -/

/-- In `READY`, `INSTR` whose event `h` never completes has emitted its transaction up to and with that event. -/
theorem runCommand_instr_hung {op : Byte} {h : Nat} {s : State} (hready : s.fsm = .ready) (hh : h < 4)
    (hhang : s.HangsAt h) :
    runCommand (instr op) s = .next (s.afterEvents ((txUnended selIR [op]).take (h + 1))).hungUp := by
  rw [State.afterEvents_eq_of_countP (countP_txUnended_take hh)]
  rcases runCommand_instr op s _ rfl with ⟨hnot, _⟩ | ⟨_, hc, _⟩ | ⟨_, k, _, hc, hnever, ht⟩
  · exact absurd hready hnot
  · exact absurd hhang.2 (hc h hh)
  · obtain rfl := hhang.eq_of_hangsAt ⟨hc, hnever⟩
    exact congrArg _ ht

/-- Settles O43: the command is `INSTR` of its opcode. -/
theorem instructionCommandHangsAtAnEvent : Obligations.InstructionCommandHangsAtAnEvent := by
  unfold Obligations.InstructionCommandHangsAtAnEvent
  intro i op h s hwf hop hrow hready hh hc hnever
  rw [exec_eq_runCommand_instr hwf hop hrow]
  exact runCommand_instr_hung hready hh ⟨hc, hnever⟩

/-- Settles O45: row 0 adds the base 0 to the column, and its test passes. -/
theorem rowZeroAddressIsTheDirectAddress : Obligations.RowZeroAddressIsTheDirectAddress := by
  unfold Obligations.RowZeroAddressIsTheDirectAddress
  intro a s
  have haddress : rowColumnAddress (a.setWidth 8) 0 = a.setWidth 8 := by simp [rowColumnAddress]
  refine (execSetDataAddressCr_eq_runCommand_instr (row := 0) nofun).trans ?_
  rw [haddress]
  rfl

/-! ## `INIT`: the first failure -/

theorem transactionIndex_eq_ofNat (j : Nat) : 1 + BitVec.ofNat 4 j = BitVec.ofNat 4 (j + 1) := by
  rw [BitVec.add_comm, BitVec.ofNat_add]
  rfl

/-- The `j`-th byte of the sequence, by its index. -/
theorem initSeq_getD_of_getElem? {j : Nat} {op : Byte} (h : initSeq[j]? = some op) : initSeq.getD j 0 = op := by
  rw [List.getD_eq_getElem?_getD, h, Option.getD_some]

/-- `PER_INSTRUCTION`: the transactions before the failed one are `ok`, so it is the first that fails. -/
theorem execInit_perInstruction_fails {n k : Nat} {s : State} (hg : s.grouping = .perInstruction) (hk : k < 9)
    (hc : s.completes (4 * k + 5)) (hok : ∀ j, j < k → s.statusAt (4 * j + 4) = .ok)
    (hfails : s.statusAt (4 * k + 4) = .busError) :
    execInit n s = .next (((s.progress (4 * k + 5) (.busConfigure :: (initOkEvents (initSeq.take k) 1 ++
      txEvents selIR [initSeq.getD k 0] .busError ++ [.wait .settle]))).initUndone).responded
      .busError 0x00 (1 + BitVec.ofNat 4 k)) := by
  obtain ⟨t, ht⟩ := exec_next (.init n) s
  refine ht.trans (congrArg _ ?_)
  have not_ok : ∀ j, (∀ i, i < j → s.statusAt (4 * i + 4) = .ok) → j ≤ k := fun j hj =>
    Nat.le_of_not_lt fun hlt => absurd ((hj k hlt).symm.trans hfails) nofun
  rcases execInit_perInstruction_cases n s t hg ht with
    ⟨hnever, _⟩ | ⟨_, hall, _⟩ | ⟨j, op, hop, _, hbefore, hstatus, rfl⟩ | ⟨j, op, h, _, hh, _, hbefore, hnever, _⟩
  · exact absurd hnever (hc 0 (by omega))
  · exact absurd (not_ok 9 hall) (by omega)
  · have hjk := not_ok j hbefore
    obtain rfl : j = k := Nat.le_antisymm hjk (Nat.le_of_not_lt fun hlt =>
      absurd ((hok j hlt).symm.trans hstatus) nofun)
    rw [initSeq_getD_of_getElem? hop]
  · have hjk := not_ok j hbefore
    exact absurd hnever (hc _ (by omega))

/-- Settles O27: the draws of the entries counted, and the byte of the failed transaction by its index. -/
theorem initStopsAtTheFirstFailure : Obligations.InitStopsAtTheFirstFailure := by
  unfold Obligations.InitStopsAtTheFirstFailure
  intro n k s _ hg hk hc hok hfails
  have hcount : ([Event.busConfigure] ++ List.flatten [(List.range k).flatMap initTxOk,
      txEvents 0x00 [initSeq.getD k 0] .busError, [.wait .settle]]).countP Event.isTransport = 4 * k + 5 := by
    simp only [List.flatten_cons, List.flatten_nil, List.countP_append, countP_flatMap_initTxOk, txEvents_countP]
    simp [Event.isTransport]
    omega
  rw [State.afterEvents_eq_of_countP hcount, ← transactionIndex_eq_ofNat]
  refine (execInit_perInstruction_fails hg hk hc hok hfails).trans ?_
  rw [initOkEvents_initSeq_take (by omega), List.append_assoc]
  rfl

/-! ## `INIT`: the event that never completes -/

/-- The state of an `INIT` hung in the transaction with this index, after these entries. -/
def State.initHung (s : State) (k : BitVec 4) (es : List Event) : State :=
  { s.afterEvents es with fsm := .initializing, seq := k, busy := true, rspValid := false }

theorem State.initHung_eq {es : List Event} {c : Nat} (h : es.countP Event.isTransport = c) (s : State)
    (k : BitVec 4) : s.initHung k es = (((s.progress c es).setFsm .initializing).setSeq k).hungUp :=
  congrArg (fun u : State => ((u.setFsm .initializing).setSeq k).hungUp) (State.afterEvents_eq_of_countP h s)

theorem execInit_unconfigured (n : Nat) {s : State} (hnever : s.drawAt 0 = .never) :
    execInit n s = .next ((s.progress 1 [.busConfigure]).setFsm .initializing).hungUp := by
  rw [execInit, runCommand, initCommand, emit_hung (s := (accept s).setFsm .initializing) hnever]
  rfl

/-- `PER_INSTRUCTION`, hung at event `h` of transaction `k + 1`. -/
theorem execInit_perInstruction_hung {n k h : Nat} {s : State} (hg : s.grouping = .perInstruction) (hk : k < 9)
    (hh : h < 4) (hhang : s.HangsAt (4 * k + h + 1)) (hok : ∀ j, j < k → s.statusAt (4 * j + 4) = .ok) :
    execInit n s = .next (((s.progress (4 * k + h + 2) (.busConfigure :: (initOkEvents (initSeq.take k) 1 ++
      (txUnended selIR [initSeq.getD k 0]).take (h + 1)))).setFsm .initializing).setSeq
      (1 + BitVec.ofNat 4 k)).hungUp := by
  obtain ⟨t, ht⟩ := exec_next (.init n) s
  refine ht.trans (congrArg _ ?_)
  rcases execInit_perInstruction_cases n s t hg ht with
    ⟨hnever, _⟩ | ⟨hc, _⟩ | ⟨j, op, _, hc, _, hfails, _⟩ | ⟨j, op, h', hop, hh', hc, _, hnever, rfl⟩
  · exact absurd (hhang.le_of_never hnever) (by omega)
  · exact absurd (hhang.le_of_completes hc) (by omega)
  · have hjk := hhang.le_of_completes hc
    exact absurd ((hok j (by omega)).symm.trans hfails) nofun
  · have hsame := hhang.eq_of_hangsAt ⟨hc, hnever⟩
    obtain rfl : j = k := by omega
    obtain rfl : h' = h := by omega
    rw [initSeq_getD_of_getElem? hop]

/-- `BATCHED`, hung in the first transaction. -/
theorem execInit_batched_hung_first {n h : Nat} {s : State} (hg : s.grouping = .batched) (hh : h < 4)
    (hhang : s.HangsAt (h + 1)) :
    execInit n s = .next (((s.progress (h + 2) (.busConfigure :: (txUnended selIR [0x38]).take (h + 1))).setFsm
      .initializing).setSeq 1).hungUp := by
  obtain ⟨t, ht⟩ := exec_next (.init n) s
  refine ht.trans (congrArg _ ?_)
  have late : ∀ {c}, s.completes c → c ≤ h + 1 := hhang.le_of_completes
  rcases execInit_batched_cases n s t hg ht with
    ⟨hnever, _⟩ | ⟨k, _, hc, hnever, rfl⟩ | ⟨hc, _⟩ | ⟨_, k, _, hc, _⟩ | ⟨hc, _⟩ | ⟨_, _, k, _, hc, _⟩ | ⟨hc, _⟩ |
    ⟨hc, _⟩
  · exact absurd (hhang.le_of_never hnever) (by omega)
  · have hsame := hhang.eq_of_hangsAt ⟨hc, hnever⟩
    obtain rfl : k = h := by omega
    rfl
  all_goals exact absurd (late hc) (by omega)

/-- `BATCHED`, hung in the second transaction. -/
theorem execInit_batched_hung_second {n h : Nat} {s : State} (hg : s.grouping = .batched) (hh : h < 4)
    (hhang : s.HangsAt (h + 5)) (h4 : s.statusAt 4 = .ok) :
    execInit n s = .next (((s.progress (h + 6) (.busConfigure :: (settledTx 0x38 ++ (.wait .fsGap ::
      (txUnended selIR [0x39]).take (h + 1))))).setFsm .initializing).setSeq 2).hungUp := by
  obtain ⟨t, ht⟩ := exec_next (.init n) s
  refine ht.trans (congrArg _ ?_)
  have late : ∀ {c}, s.completes c → c ≤ h + 5 := hhang.le_of_completes
  have early : ∀ {m}, s.drawAt m = .never → h + 5 ≤ m := hhang.le_of_never
  rcases execInit_batched_cases n s t hg ht with
    ⟨hnever, _⟩ | ⟨k, _, _, hnever, _⟩ | ⟨_, h4', _⟩ | ⟨_, k, _, hc, hnever, rfl⟩ | ⟨hc, _⟩ | ⟨_, _, k, _, hc, _⟩ |
    ⟨hc, _⟩ | ⟨hc, _⟩
  · exact absurd (early hnever) (by omega)
  · exact absurd (early hnever) (by omega)
  · cases h4.symm.trans h4'
  · have hsame := hhang.eq_of_hangsAt ⟨hc, hnever⟩
    obtain rfl : k = h := by omega
    rfl
  all_goals exact absurd (late hc) (by omega)

/-- `BATCHED`, hung in the batch. -/
theorem execInit_batched_hung_third {n h : Nat} {s : State} (hg : s.grouping = .batched) (hh : h < 10)
    (hhang : s.HangsAt (h + 9)) (h4 : s.statusAt 4 = .ok) (h8 : s.statusAt 8 = .ok) :
    execInit n s = .next (((s.progress (h + 10) (.busConfigure :: (settledTx 0x38 ++ (.wait .fsGap :: (settledTx 0x39 ++
      (txUnended selIR initBatch).take (h + 1)))))).setFsm .initializing).setSeq 3).hungUp := by
  obtain ⟨t, ht⟩ := exec_next (.init n) s
  refine ht.trans (congrArg _ ?_)
  have late : ∀ {c}, s.completes c → c ≤ h + 9 := hhang.le_of_completes
  have early : ∀ {m}, s.drawAt m = .never → h + 9 ≤ m := hhang.le_of_never
  rcases execInit_batched_cases n s t hg ht with
    ⟨hnever, _⟩ | ⟨k, _, _, hnever, _⟩ | ⟨_, h4', _⟩ | ⟨_, k, _, _, hnever, _⟩ | ⟨_, _, h8', _⟩ |
    ⟨_, _, k, _, hc, hnever, rfl⟩ | ⟨hc, _⟩ | ⟨hc, _⟩
  · exact absurd (early hnever) (by omega)
  · exact absurd (early hnever) (by omega)
  · cases h4.symm.trans h4'
  · exact absurd (early hnever) (by omega)
  · cases h8.symm.trans h8'
  · have hsame := hhang.eq_of_hangsAt ⟨hc, hnever⟩
    obtain rfl : k = h := by omega
    rfl
  all_goals exact absurd (late hc) (by omega)

/-- What an `INIT` has emitted that hangs in the one-byte transaction `k + 1`, at event `h`. -/
def hungEvents (k h : Nat) : List Event :=
  [Event.busConfigure] ++ List.flatten [(List.range k).flatMap initTxOk,
    (txUnended selIR [initSeq.getD k 0]).take (h + 1)]

theorem countP_hungEvents {k h : Nat} (hh : h < 4) : (hungEvents k h).countP Event.isTransport = 4 * k + h + 2 := by
  have htx := countP_txUnended_take (sel := selIR) (p := [initSeq.getD k 0]) hh
  simp only [hungEvents, List.flatten_cons, List.flatten_nil, List.append_nil, List.countP_append,
    countP_flatMap_initTxOk, htx]
  simp [Event.isTransport]
  omega

/-- How many of `INIT`'s transactions send a single byte (40_init_sequencer.md R101, R103). -/
def singleByteCount : InitGrouping → Nat
  | .perInstruction => 9
  | .batched => 2

/-- Hung in a transaction of a single byte, in either grouping. -/
theorem execInit_hung {n k h : Nat} {s : State} (hk : k < singleByteCount s.grouping) (hh : h < 4)
    (hhang : s.HangsAt (4 * k + h + 1)) (hok : ∀ j, j < k → s.statusAt (4 * j + 4) = .ok) :
    execInit n s = .next (s.initHung (BitVec.ofNat 4 (k + 1)) (hungEvents k h)) := by
  rw [State.initHung_eq (countP_hungEvents hh)]
  simp only [hungEvents, List.flatten_cons, List.flatten_nil, List.append_nil]
  cases hg : s.grouping with
  | perInstruction =>
    rw [hg] at hk
    have hk9 : k < 9 := hk
    rw [← transactionIndex_eq_ofNat, ← initOkEvents_initSeq_take hk9.le]
    exact execInit_perInstruction_hung hg hk9 hh hhang hok
  | batched =>
    rw [hg] at hk
    have hk2 : k < 2 := hk
    obtain rfl | rfl : k = 0 ∨ k = 1 := by omega
    · rw [show 4 * 0 + h + 1 = h + 1 by omega] at hhang
      rw [show 4 * 0 + h + 2 = h + 2 by omega]
      exact execInit_batched_hung_first hg hh hhang
    · rw [show 4 * 1 + h + 1 = h + 5 by omega] at hhang
      rw [show 4 * 1 + h + 2 = h + 6 by omega]
      exact execInit_batched_hung_second hg hh hhang (hok 0 Nat.zero_lt_one)

/-- What a `BATCHED` `INIT` has emitted that hangs in the batch, at event `h`. -/
def hungBatchEvents (h : Nat) : List Event :=
  [Event.busConfigure] ++ List.flatten [settledTx 0x38, [.wait .fsGap], settledTx 0x39,
    (txUnended selIR initBatch).take (h + 1)]

theorem countP_hungBatchEvents {h : Nat} (hh : h < 10) :
    (hungBatchEvents h).countP Event.isTransport = h + 10 := by
  have htx := countP_txUnended_take (sel := selIR) (p := initBatch) hh
  have hsettled : ∀ op, (settledTx op).countP Event.isTransport = 4 := fun _ => rfl
  simp only [hungBatchEvents, List.flatten_cons, List.flatten_nil, List.append_nil, List.countP_append, htx, hsettled]
  simp [Event.isTransport]
  omega

theorem execInit_hung_batch {n h : Nat} {s : State} (hg : s.grouping = .batched) (hh : h < 10)
    (hhang : s.HangsAt (h + 9)) (h4 : s.statusAt 4 = .ok) (h8 : s.statusAt 8 = .ok) :
    execInit n s = .next (s.initHung 3 (hungBatchEvents h)) := by
  rw [State.initHung_eq (countP_hungBatchEvents hh)]
  simp only [hungBatchEvents, List.flatten_cons, List.flatten_nil, List.append_nil]
  exact execInit_batched_hung_third hg hh hhang h4 h8

/-- Settles O54: hung at `BusConfigure`, in a transaction of one byte, and in the batch. -/
theorem hungInitHoldsTheIndexOfItsTransaction : Obligations.HungInitHoldsTheIndexOfItsTransaction := by
  unfold Obligations.HungInitHoldsTheIndexOfItsTransaction
  exact ⟨fun n _ hnever => execInit_unconfigured n hnever,
    fun _ _ _ _ hk hh hc hok hnever => execInit_hung hk hh ⟨hc, hnever⟩ hok,
    fun _ _ _ hg hh hc h4 h8 hnever => execInit_hung_batch hg hh ⟨hc, hnever⟩ h4 h8⟩

end Sys2Proof.Machine
